-- ==== Sys2Proof/Word.lean ====
section
/-! DEFINITION. The word types of the block: bytes (rule R6), the 16-bit and 32-bit values of the
registers and masks (rules R17 to R19, R71, R84). -/

namespace Sys2Proof

/-- A byte (R6). -/
abbrev Byte := BitVec 8

/-- A 16-bit value: an interval, a submask, a motor output (R18, R19, R84, R46). -/
abbrev Half := BitVec 16

/-- A 32-bit value: a mask, a type tag, an ack word, an `f32` pattern (R71, R90). -/
abbrev Word := BitVec 32

end Sys2Proof
end

