-- ==== Sys2Proof/Syntax.lean ====
section
/-! DEFINITION. The instructions of the block: one constructor of `Instr` for each of the 83 rows of
spec/opcode_table.json (rule R99), and the small enumerations their operands use. -/

namespace Sys2Proof

/-- The 24 operations of the dispatcher, in slot order (R80, R200). -/
inductive CmdOp where
  | setEepromData | reinitEepromData | reqEepromData | reqEnableIteration
  | motor (i : Fin 8)
  | setCommandOverride | setStateMask | setStateDelay | setSdWriteDelay | setLed | setSerialRc
  | setCardRecording | setPartialEepromData | reinitPartialEepromData | reqPartialEepromData
  | reqCardRecordingState | reqResponse
deriving DecidableEq, Repr

/-- The nine sub-fields of a Configuration Record, in order (R84, R170). -/
inductive SubField where
  | version | pcb | mixTable | magBias | channel | pidParameters | stateParameters | ledStates
  | deviceName
deriving DecidableEq, Repr

/-- The three procedures that visit the sub-fields a submask selects: `ParsePartial` (R176),
`ResetPartial` (R177), `WritePartial` (R175). -/
inductive SubWalk where
  | parse | reset | write
deriving DecidableEq, Repr

/-- The 27 telemetry fields, in the order of R88. -/
inductive TelField where
  | micros | status | v0 | i0 | i1 | accel | gyro | mag | temperature | pressure | rxPpm
  | auxChanMask | commands | fAndT
  | pidFzMaster | pidTxMaster | pidTyMaster | pidTzMaster
  | pidFzSlave | pidTxSlave | pidTySlave | pidTzSlave
  | motorOut | kineAngle | kineRate | kineAltitude | loopCount
deriving DecidableEq, Repr

/-- The typed fields of the Field Reader and Field Writer (R90). -/
inductive FieldType where
  | u8 | i8 | u16 | i16 | u32 | i32 | f32 | f32x3 | bytes (n : Nat) | tag
deriving DecidableEq, Repr

/-- A value of a typed field, at its exact width (R142, R143). Signed values are kept as their bit
pattern, since the block never computes on them. -/
inductive FieldVal where
  | u8 (v : Byte) | i8 (v : Byte) | u16 (v : Half) | i16 (v : Half) | u32 (v : Word) | i32 (v : Word)
  | f32 (v : Word) | f32x3 (x y z : Word) | bytes (bs : List Byte) | tag (v : Word)
deriving DecidableEq, Repr

/-- The two capacity classes of a frame being built (R42, R147). -/
inductive FrameClass where
  | small | large
deriving DecidableEq, Repr

/-- The destinations of a built frame (R148). -/
inductive Dest where
  | wire | log
deriving DecidableEq, Repr

/-- The word a row's bit pattern is matched against (R99). -/
inductive Format where
  | hdr | cmd | sub | state | op
deriving DecidableEq, Repr

/-- The instructions: one constructor per row of the opcode table. -/
inductive Instr where
  -- format CMD: the dispatcher's operations (R80); operands are read from RBUF (R82)
  | setEepromData
  | reinitEepromData
  | reqEepromData
  | reqEnableIteration
  | motorOverrideSpeed0
  | motorOverrideSpeed1
  | motorOverrideSpeed2
  | motorOverrideSpeed3
  | motorOverrideSpeed4
  | motorOverrideSpeed5
  | motorOverrideSpeed6
  | motorOverrideSpeed7
  | setCommandOverride
  | setStateMask
  | setStateDelay
  | setSdWriteDelay
  | setLed
  | setSerialRc
  | setCardRecording
  | setPartialEepromData
  | reinitPartialEepromData
  | reqPartialEepromData
  | reqCardRecordingState
  | reqResponse
  -- format SUB: the sub-fields of the Configuration Record (R84)
  | version (k : SubWalk)
  | pcb (k : SubWalk)
  | mixTable (k : SubWalk)
  | magBias (k : SubWalk)
  | channel (k : SubWalk)
  | pidParameters (k : SubWalk)
  | stateParameters (k : SubWalk)
  | ledStates (k : SubWalk)
  | deviceName (k : SubWalk)
  -- format STATE: the telemetry fields (R88)
  | micros
  | status
  | v0
  | i0
  | i1
  | accel
  | gyro
  | mag
  | temperature
  | pressure
  | rxPpm
  | auxChanMask
  | commands
  | fAndT
  | pidFzMaster
  | pidTxMaster
  | pidTyMaster
  | pidTzMaster
  | pidFzSlave
  | pidTxSlave
  | pidTySlave
  | pidTzSlave
  | motorOut
  | kineAngle
  | kineRate
  | kineAltitude
  | loopCount
  -- format HDR: the type tags (R78)
  | typeCommand
  | typeState
  | typeResponse
  -- format OP: unit operations and host steps (R99)
  | encode (p : List Byte)
  | decode (f : List Byte) (cap : Nat)
  | rxByte (b : Byte)
  | process
  | emit (ts : Word) (mask : Word) (toLog : Bool)
  | reset
  | parseInto (ts : List FieldType)
  | append (bs : List Byte)
  | beginFrame (c : FrameClass) (type : Word) (mask : Word)
  | send (d : Dest)
  | verify
  | fromString (bs : List Byte)
  | readFull
  | writeFull
  | writePartial (sub : Half) (ledsub : Half)
  | parsePartial (sub : Half)
  | resetPartial (sub : Half)
  | configValid
  | commit
  | stateLen (mask : Word)
deriving DecidableEq, Repr

/-- The format column of the opcode table (R99). -/
def Instr.format : Instr → Format
  | .setEepromData | .reinitEepromData | .reqEepromData | .reqEnableIteration
  | .motorOverrideSpeed0 | .motorOverrideSpeed1 | .motorOverrideSpeed2 | .motorOverrideSpeed3
  | .motorOverrideSpeed4 | .motorOverrideSpeed5 | .motorOverrideSpeed6 | .motorOverrideSpeed7
  | .setCommandOverride | .setStateMask | .setStateDelay | .setSdWriteDelay | .setLed | .setSerialRc
  | .setCardRecording | .setPartialEepromData | .reinitPartialEepromData | .reqPartialEepromData
  | .reqCardRecordingState | .reqResponse => .cmd
  | .version _ | .pcb _ | .mixTable _ | .magBias _ | .channel _ | .pidParameters _
  | .stateParameters _ | .ledStates _ | .deviceName _ => .sub
  | .micros | .status | .v0 | .i0 | .i1 | .accel | .gyro | .mag | .temperature | .pressure | .rxPpm
  | .auxChanMask | .commands | .fAndT | .pidFzMaster | .pidTxMaster | .pidTyMaster | .pidTzMaster
  | .pidFzSlave | .pidTxSlave | .pidTySlave | .pidTzSlave | .motorOut | .kineAngle | .kineRate
  | .kineAltitude | .loopCount => .state
  | .typeCommand | .typeState | .typeResponse => .hdr
  | .encode _ | .decode _ _ | .rxByte _ | .process | .emit _ _ _ | .reset | .parseInto _ | .append _
  | .beginFrame _ _ _ | .send _ | .verify | .fromString _ | .readFull | .writeFull
  | .writePartial _ _ | .parsePartial _ | .resetPartial _ | .configValid | .commit
  | .stateLen _ => .op

/-- The CMD row of a dispatcher operation (R80). -/
def CmdOp.instr : CmdOp → Instr
  | .setEepromData => .setEepromData
  | .reinitEepromData => .reinitEepromData
  | .reqEepromData => .reqEepromData
  | .reqEnableIteration => .reqEnableIteration
  | .motor 0 => .motorOverrideSpeed0
  | .motor 1 => .motorOverrideSpeed1
  | .motor 2 => .motorOverrideSpeed2
  | .motor 3 => .motorOverrideSpeed3
  | .motor 4 => .motorOverrideSpeed4
  | .motor 5 => .motorOverrideSpeed5
  | .motor 6 => .motorOverrideSpeed6
  | .motor 7 => .motorOverrideSpeed7
  | .setCommandOverride => .setCommandOverride
  | .setStateMask => .setStateMask
  | .setStateDelay => .setStateDelay
  | .setSdWriteDelay => .setSdWriteDelay
  | .setLed => .setLed
  | .setSerialRc => .setSerialRc
  | .setCardRecording => .setCardRecording
  | .setPartialEepromData => .setPartialEepromData
  | .reinitPartialEepromData => .reinitPartialEepromData
  | .reqPartialEepromData => .reqPartialEepromData
  | .reqCardRecordingState => .reqCardRecordingState
  | .reqResponse => .reqResponse

/-- The SUB row of a sub-field, for one of the procedures that visit it (R84). -/
def SubField.instr (k : SubField) (w : SubWalk) : Instr :=
  match k with
  | .version => .version w
  | .pcb => .pcb w
  | .mixTable => .mixTable w
  | .magBias => .magBias w
  | .channel => .channel w
  | .pidParameters => .pidParameters w
  | .stateParameters => .stateParameters w
  | .ledStates => .ledStates w
  | .deviceName => .deviceName w

/-- The STATE row of a telemetry field (R88). -/
def TelField.instr : TelField → Instr
  | .micros => .micros
  | .status => .status
  | .v0 => .v0
  | .i0 => .i0
  | .i1 => .i1
  | .accel => .accel
  | .gyro => .gyro
  | .mag => .mag
  | .temperature => .temperature
  | .pressure => .pressure
  | .rxPpm => .rxPpm
  | .auxChanMask => .auxChanMask
  | .commands => .commands
  | .fAndT => .fAndT
  | .pidFzMaster => .pidFzMaster
  | .pidTxMaster => .pidTxMaster
  | .pidTyMaster => .pidTyMaster
  | .pidTzMaster => .pidTzMaster
  | .pidFzSlave => .pidFzSlave
  | .pidTxSlave => .pidTxSlave
  | .pidTySlave => .pidTySlave
  | .pidTzSlave => .pidTzSlave
  | .motorOut => .motorOut
  | .kineAngle => .kineAngle
  | .kineRate => .kineRate
  | .kineAltitude => .kineAltitude
  | .loopCount => .loopCount

/-- The four steps that the environment offers the block (R10); every other row runs inside one. -/
def Instr.isHostStep : Instr → Bool
  | .rxByte _ | .process | .emit _ _ _ | .reset => true
  | _ => false

end Sys2Proof
end

