-- ==== Sys2Proof/Config.lean ====
section
/-! DEFINITION. The implementation parameters of rule R4 as plain data, and the uninterpreted functions
that stand for what the spec leaves open: the record-level checks it does not list (D21), and the values
it does not state. -/

namespace Sys2Proof

/-- The frame codec algorithm (R4 `CODEC_ALG`, R123). -/
inductive CodecAlg where
  | esc | cobs
deriving DecidableEq, Repr

/-- The parameter `RecordValid` (R4, R178, D21) as plain data: true everywhere (the default), or an
implementation's own total function of the record's bytes, named by a number. -/
inductive RecordCheck where
  | always
  | implementation (n : Nat)
deriving DecidableEq, Repr

/-- An implementation's record-level checks: any total function of the record's bytes. The spec gives
none (U8), so it has no body (notes/assumptions/16.md). -/
opaque Config.recordLevelCheck : Nat → List Byte → Bool

/-- The name in a row of `TELEMETRY_FIELDS`: one of the fields of R88, or a name that another table brings
(D12). -/
inductive TelName where
  | field (f : TelField)
  | other (name : String)
deriving DecidableEq, Repr

/-- One row of `TELEMETRY_FIELDS` (R4): State mask bit, name, size in bytes. -/
structure TelemetryRow where
  bit : Nat
  name : TelName
  size : Nat
deriving DecidableEq, Repr

/-- The parameters of R4. -/
structure Params where
  codecAlg : CodecAlg
  escByte : Byte
  escXor : Byte
  decodeStrict : Bool
  typeCommand : Word
  typeState : Word
  typeResponse : Word
  /-- `CMD_BIT`, indexed by slot. -/
  cmdBit : List Nat
  /-- `SUB_BIT`, indexed by sub-field. -/
  subBit : List Nat
  telemetryFields : List TelemetryRow
  /-- `OP_PAYLOAD`, where it differs from the table of R82 (notes/assumptions/17.md). -/
  opPayload : List (CmdOp × List FieldType)
  ledCmdSize : Nat
  capSmall : Nat
  capLarge : Nat
  capRx : Nat
  /-- `CFG_SIZE[0..6]`. -/
  cfgSize : List Nat
  ledEntrySize : Nat
  nameCap : Nat
  cfgDefault : List Byte
  recordCheck : RecordCheck
  nameParseUnconditional : Bool
  resetTelemetryMask : Word
  resetSendInterval : Half
  resetLogInterval : Half
deriving DecidableEq, Repr

/-- The value of `w` bits that an operation takes from a parsed tuple for which its rule states none: a
tuple other than that of R82, of another width or kind than the operand. Free: it has no body
(notes/assumptions/17.md). -/
opaque Config.unstatedOperand : CmdOp → List FieldVal → (w : Nat) → BitVec w

/-- The `w` bits of a `MICROS` row whose width is not the 4 bytes of R270, from `ts`. Free: it has no body
(notes/assumptions/18.md). -/
opaque Config.unstatedTimestamp : Word → (w : Nat) → BitVec w

/-- `DECODE` of a sequence that holds `0x00`, for which R114 and R125 state no result. Free: it has no body
(notes/assumptions/35.md). -/
opaque Config.unstatedDecode : Params → List Byte → Nat → Option (List Byte)

/-- The default table of R88: bits 0 to 27 in the listed order, bit 14 unused. -/
def Config.telemetryFields : List TelemetryRow :=
  [⟨0, .field .micros, 4⟩, ⟨1, .field .status, 2⟩, ⟨2, .field .v0, 2⟩, ⟨3, .field .i0, 2⟩,
   ⟨4, .field .i1, 2⟩, ⟨5, .field .accel, 12⟩, ⟨6, .field .gyro, 12⟩, ⟨7, .field .mag, 12⟩,
   ⟨8, .field .temperature, 2⟩, ⟨9, .field .pressure, 4⟩, ⟨10, .field .rxPpm, 12⟩,
   ⟨11, .field .auxChanMask, 1⟩, ⟨12, .field .commands, 8⟩, ⟨13, .field .fAndT, 16⟩,
   ⟨15, .field .pidFzMaster, 24⟩, ⟨16, .field .pidTxMaster, 24⟩, ⟨17, .field .pidTyMaster, 24⟩,
   ⟨18, .field .pidTzMaster, 24⟩, ⟨19, .field .pidFzSlave, 24⟩, ⟨20, .field .pidTxSlave, 24⟩,
   ⟨21, .field .pidTySlave, 24⟩, ⟨22, .field .pidTzSlave, 24⟩, ⟨23, .field .motorOut, 16⟩,
   ⟨24, .field .kineAngle, 12⟩, ⟨25, .field .kineRate, 12⟩, ⟨26, .field .kineAltitude, 4⟩,
   ⟨27, .field .loopCount, 4⟩]

/-- The default `CMD_BIT` of R80, by slot: bits 1 to 23, then bit 0 for `REQ_RESPONSE`. -/
def Config.cmdBit : List Nat :=
  [1, 2, 3, 4, 5, 6, 7, 8, 9, 10, 11, 12, 13, 14, 15, 16, 17, 18, 19, 20, 21, 22, 23, 0]

/-- The all-defaults record DEF of 95_test_vectors.md (notes/assumptions/1.md). -/
def Config.testDefault : List Byte :=
  [0x01, 0x02, 0x03, 0x10, 0x11, 0x20, 0x21, 0x30, 0x31, 0x40, 0x50, 0x51, 0x60,
   0xA0, 0xA1, 0xA2, 0xA3, 0xA4, 0xA5, 0xA6, 0xA7, 0xA8, 0xA9, 0xAA, 0xAB, 0xAC, 0xAD, 0xAE, 0xAF,
   0x44, 0x45, 0x46, 0x00, 0x00, 0x00, 0x00, 0x00, 0x00]

/-- The record P0 of 95_test_vectors.md (notes/assumptions/30.md). -/
def Config.testRecord : List Byte :=
  [0x01, 0x02, 0x03, 0x12, 0x13, 0x22, 0x23, 0x32, 0x33, 0x42, 0x52, 0x53, 0x62,
   0xB0, 0xB1, 0xB2, 0xB3, 0xB4, 0xB5, 0xB6, 0xB7, 0xB8, 0xB9, 0xBA, 0xBB, 0xBC, 0xBD, 0xBE, 0xBF,
   0x46, 0x4C, 0x59, 0x00, 0x00, 0x00, 0x00, 0x00, 0x00]

/-- The parameter assignment at reset: the defaults of R4, and for every parameter R4 leaves OPEN the
TEST_PROFILE of R4 with the start state S0 of 95_test_vectors.md.
DESIGN CHOICE (unsafe): notes/assumptions/1.md, 2.md. -/
def Config.params : Params where
  codecAlg := .esc
  escByte := 0x7D
  escXor := 0x20
  decodeStrict := true
  typeCommand := 0
  typeState := 1
  typeResponse := 2
  cmdBit := Config.cmdBit
  subBit := [0, 1, 2, 3, 4, 5, 6, 7, 8]
  telemetryFields := Config.telemetryFields
  opPayload := []
  ledCmdSize := 9
  capSmall := 20
  capLarge := 1000
  capRx := 1000
  cfgSize := [3, 2, 2, 2, 1, 2, 1]
  ledEntrySize := 1
  nameCap := 9
  cfgDefault := Config.testDefault
  recordCheck := .always
  nameParseUnconditional := true
  resetTelemetryMask := 0
  resetSendInterval := 0
  resetLogInterval := 0

end Sys2Proof
end

