-- ==== Sys2Proof/Machine/Bytes.lean ====
section
/-! DEFINITION. Byte-order helpers: the little-endian byte sequences of rules R7 and R48. -/

namespace Sys2Proof

/-- `le_N(v)`: the `n` low bytes of `v`, least significant first (R7, R48). -/
def leN : Nat → Nat → List Byte
  | 0, _ => []
  | n + 1, v => BitVec.ofNat 8 v :: leN n (v / 256)

/-- `from_le(s)`: the number whose bits `8i+7:8i` are byte i of `s` (R7). -/
def fromLe : List Byte → Nat
  | [] => 0
  | b :: t => b.toNat + 256 * fromLe t

/-- `le_2` of a 16-bit value. -/
def le2 (v : Half) : List Byte := leN 2 v.toNat

/-- `le_4` of a 32-bit value. -/
def le4 (v : Word) : List Byte := leN 4 v.toNat

/-- The u16 (or i16 pattern) of a two-byte sequence. -/
def half (bs : List Byte) : Half := BitVec.ofNat 16 (fromLe bs)

/-- The u32 (or i32, f32 pattern) of a four-byte sequence. -/
def word (bs : List Byte) : Word := BitVec.ofNat 32 (fromLe bs)

/-- The byte of a one-byte sequence. -/
def byte (bs : List Byte) : Byte := BitVec.ofNat 8 (fromLe bs)

/-- The mask whose only set bit is `b` (R6). -/
def oneBit (b : Nat) : Word := 1#32 <<< b

end Sys2Proof
end

