-- ==== Sys2Proof/Machine/Codec.lean ====
section
/-! DEFINITION. The Frame Codec's algorithms as functions of byte sequences (40_frame_codec.md):
`ENCODE` and `DECODE` for ESC (R112, R114) and for COBS (R124, R125). -/

namespace Sys2Proof

/-! ### ESC -/

/-- A payload byte that is sent as an escape pair (R112). -/
def Params.escaped (p : Params) (x : Byte) : Bool := x == 0#8 || x == p.escByte

/-- The bytes one payload byte is sent as (R112). -/
def escapeByte (p : Params) (x : Byte) : List Byte :=
  if p.escaped x then [p.escByte, x ^^^ p.escXor] else [x]

/-- `stuffed_ESC(p)` (R112). -/
def stuffedEsc (p : Params) : List Byte → List Byte
  | [] => []
  | x :: t => escapeByte p x ++ stuffedEsc p t

/-- An escape code that the strict decoder rejects (R114 case (a)). -/
def Params.illegalCode (p : Params) (d : Byte) : Bool := p.decodeStrict && !p.escaped d

/-- The loop of `DECODE` for ESC: the bytes still to read, `esc`, `out` (R114). -/
def decodeEscLoop (p : Params) (cap : Nat) : List Byte → Bool → List Byte → Option (List Byte)
  | [], esc, out => if esc then none else some out
  | x :: t, true, out =>
    if p.illegalCode (x ^^^ p.escXor) then none
    else if cap < (out ++ [x ^^^ p.escXor]).length then none
    else decodeEscLoop p cap t false (out ++ [x ^^^ p.escXor])
  | x :: t, false, out =>
    if x = p.escByte then
      if cap < out.length then none else decodeEscLoop p cap t true out
    else if cap < (out ++ [x]).length then none
    else decodeEscLoop p cap t false (out ++ [x])

/-- `DECODE(f, cap)` for ESC (R114); `none` is `fail`. -/
def decodeEsc (p : Params) (f : List Byte) (cap : Nat) : Option (List Byte) :=
  decodeEscLoop p cap f false []

/-! ### COBS (given by the spec from general knowledge, notes/assumptions/28.md) -/

/-- A COBS block with its code byte (R124). -/
def cobsBlock (block : List Byte) : List Byte := BitVec.ofNat 8 (block.length + 1) :: block

/-- The loop of `stuffed_COBS`: the bytes still to read, `block`, `just_ff` (R124). -/
def stuffedCobsLoop : List Byte → List Byte → Bool → List Byte
  | [], block, justFf => if justFf then [] else cobsBlock block
  | x :: t, block, _ =>
    if x = 0#8 then cobsBlock block ++ stuffedCobsLoop t [] false
    else if (block ++ [x]).length = 254 then (0xFF#8 :: (block ++ [x])) ++ stuffedCobsLoop t [] true
    else stuffedCobsLoop t (block ++ [x]) false

/-- `stuffed_COBS(p)` (R124). -/
def stuffedCobs (p : List Byte) : List Byte := stuffedCobsLoop p [] false

/-- The loop of `DECODE` for COBS (R125): a bound on the turns, the bytes still to read, `out`. Every
turn reads at least the code byte, so the length of the frame bounds the turns. -/
def decodeCobsLoop (cap : Nat) : Nat → List Byte → List Byte → Option (List Byte)
  | _, [], out => some out
  | 0, _ :: _, out => some out
  | k + 1, code :: t, out =>
    if t.length < code.toNat - 1 then none
    else
      let rest := t.drop (code.toNat - 1)
      let out' := out ++ t.take (code.toNat - 1)
      let out'' := if code ≠ 0xFF#8 ∧ rest ≠ [] then out' ++ [0#8] else out'
      if cap < out''.length then none else decodeCobsLoop cap k rest out''

/-- `DECODE(f, cap)` for COBS (R125); `none` is `fail`. -/
def decodeCobs (f : List Byte) (cap : Nat) : Option (List Byte) :=
  if f = [] then none else decodeCobsLoop cap f.length f []

/-! ### The algorithm in force (R123) -/

/-- `stuffed(p)` (R111). -/
def stuffed (p : Params) (payload : List Byte) : List Byte :=
  match p.codecAlg with
  | .esc => stuffedEsc p payload
  | .cobs => stuffedCobs payload

/-- `ENCODE(p)` (R111, R112, R124). -/
def encodeFrame (p : Params) (payload : List Byte) : List Byte := stuffed p payload ++ [0#8]

/-- `DECODE(f, cap)` (R114, R125); `none` is `fail`. -/
def decodeFrame (p : Params) (f : List Byte) (cap : Nat) : Option (List Byte) :=
  match p.codecAlg with
  | .esc => decodeEsc p f cap
  | .cobs => decodeCobs f cap

end Sys2Proof
end

