-- ==== Sys2Proof/Machine/NameValidator.lean ====
section
/-! DEFINITION. The Name Validator (42_name_validator.md): legal characters, `verify`, `fromString`. -/

namespace Sys2Proof

/-- Legal characters `[0-9a-zA-Z _-]` as ASCII codes (R161; the codes are general knowledge of the spec,
notes/assumptions/28.md). -/
def legalChar (c : Byte) : Bool :=
  let n := c.toNat
  (0x30 ≤ n && n ≤ 0x39) || (0x41 ≤ n && n ≤ 0x5A) || (0x61 ≤ n && n ≤ 0x7A) ||
    n == 0x20 || n == 0x5F || n == 0x2D

/-- `verify(name)` on the `NAME_CAP` bytes of a name (R162): true is `valid`. -/
def verifyName : List Byte → Bool
  | [] => false
  | c :: t => if c = 0#8 then true else if legalChar c then verifyName t else false

/-- `fromString(s)` for a buffer of the given capacity (R164). -/
def nameFromString : Nat → List Byte → List Byte
  | 0, _ => []
  | n + 1, [] => List.replicate (n + 1) 0#8
  | n + 1, c :: t => if c = 0#8 then List.replicate (n + 1) 0#8 else c :: nameFromString n t

end Sys2Proof
end

