-- ==== Sys2Proof/Machine/Params.lean ====
section
/-! DEFINITION. What the parameters determine: slots and mask bits, the layout of the Configuration
Record (R4, R170), the telemetry widths (R88), record validity (R178), and the well-formedness
constraints WF1 to WF11 (R5). -/

namespace Sys2Proof

/-- The sequencer slot of an operation (R80, R200). -/
def CmdOp.slot : CmdOp → Nat
  | .setEepromData => 0 | .reinitEepromData => 1 | .reqEepromData => 2 | .reqEnableIteration => 3
  | .motor i => 4 + i.val
  | .setCommandOverride => 12 | .setStateMask => 13 | .setStateDelay => 14 | .setSdWriteDelay => 15
  | .setLed => 16 | .setSerialRc => 17 | .setCardRecording => 18 | .setPartialEepromData => 19
  | .reinitPartialEepromData => 20 | .reqPartialEepromData => 21 | .reqCardRecordingState => 22
  | .reqResponse => 23

/-- The sequencer position of an operation's slot (R13, R200). -/
def CmdOp.seq (op : CmdOp) : Fin 25 := Fin.ofNat 25 op.slot

/-- The operations in slot order (R200). -/
def CmdOp.all : List CmdOp :=
  [.setEepromData, .reinitEepromData, .reqEepromData, .reqEnableIteration,
   .motor 0, .motor 1, .motor 2, .motor 3, .motor 4, .motor 5, .motor 6, .motor 7,
   .setCommandOverride, .setStateMask, .setStateDelay, .setSdWriteDelay, .setLed, .setSerialRc,
   .setCardRecording, .setPartialEepromData, .reinitPartialEepromData, .reqPartialEepromData,
   .reqCardRecordingState, .reqResponse]

/-- `CMD_BIT[op]` (R80). Outside the 24 entries that WF2 asks for, a position past every mask. -/
def Params.cmdBitOf (p : Params) (op : CmdOp) : Nat := p.cmdBit.getD op.slot 32

/-- The mask whose only bit is the operation's (R14, R203). -/
def Params.cmdMask (p : Params) (op : CmdOp) : Word := oneBit (p.cmdBitOf op)

/-- `MOTOR_OVERRIDE_SPEED_ALL`: the OR of the eight motor bits (R83, R98). -/
def Params.motorAll (p : Params) : Word :=
  (List.finRange 8).foldl (fun m i => m ||| p.cmdMask (.motor i)) 0

/-- The index k of a sub-field (R84). -/
def SubField.index : SubField → Nat
  | .version => 0 | .pcb => 1 | .mixTable => 2 | .magBias => 3 | .channel => 4 | .pidParameters => 5
  | .stateParameters => 6 | .ledStates => 7 | .deviceName => 8

/-- The sub-fields in the fixed order of R84. -/
def SubField.all : List SubField :=
  [.version, .pcb, .mixTable, .magBias, .channel, .pidParameters, .stateParameters, .ledStates,
   .deviceName]

/-- `SUB_BIT[k]` (R84). Outside the nine entries that WF11 asks for, a position past every submask. -/
def Params.subBitOf (p : Params) (k : SubField) : Nat := p.subBit.getD k.index 16

/-- `CFG_SIZE[k]` for all nine sub-fields (R4). -/
def Params.cfgSizeOf (p : Params) (k : SubField) : Nat :=
  match k with
  | .ledStates => 16 * p.ledEntrySize
  | .deviceName => p.nameCap
  | k => p.cfgSize.getD k.index 0

/-- `CFG_OFF[k]` (R4). -/
def Params.cfgOff (p : Params) (k : SubField) : Nat :=
  ((SubField.all.take k.index).map p.cfgSizeOf).sum

/-- `CFG_TOTAL` (R4). -/
def Params.cfgTotal (p : Params) : Nat := (SubField.all.map p.cfgSizeOf).sum

/-- The byte offset of LED entry `i` (R170). -/
def Params.ledOff (p : Params) (i : Nat) : Nat := p.cfgOff .ledStates + i * p.ledEntrySize

/-- `field(rec, k)` (R170). -/
def Params.field (p : Params) (rec : List Byte) (k : SubField) : List Byte :=
  (rec.drop (p.cfgOff k)).take (p.cfgSizeOf k)

/-- `led(rec, i)` (R170). -/
def Params.led (p : Params) (rec : List Byte) (i : Nat) : List Byte :=
  (rec.drop (p.ledOff i)).take p.ledEntrySize

/-- `RecordValid(rec)` (R178). -/
def Params.recordValid (p : Params) (rec : List Byte) : Bool :=
  match p.recordCheck with
  | .always => true
  | .implementation n => Config.recordLevelCheck n rec

/-- `ConfigValid(rec)` (R178). -/
def Params.configValid (p : Params) (rec : List Byte) : Bool :=
  verifyName (p.field rec .deviceName) && p.recordValid rec

/-- `PartialLen(sub, ledsub)` (R86). -/
def Params.partialLen (p : Params) (sub ledsub : Half) : Nat :=
  2 + ((SubField.all.map fun k =>
    if sub.getLsbD (p.subBitOf k) then
      (if k = .ledStates then 2 + p.ledEntrySize * ((List.range 16).countP fun i => ledsub.getLsbD i)
       else p.cfgSizeOf k)
    else 0).sum)

/-- What one sub-field contributes to a partial record (R86). -/
def Params.partialField (p : Params) (rec : List Byte) (sub ledsub : Half) (k : SubField) : List Byte :=
  if sub.getLsbD (p.subBitOf k) then
    (if k = .ledStates then
      le2 ledsub ++ (List.range 16).flatMap fun i => if ledsub.getLsbD i then p.led rec i else []
     else p.field rec k)
  else []

/-- The partial record layout of R86. -/
def Params.partialLayout (p : Params) (rec : List Byte) (sub ledsub : Half) : List Byte :=
  le2 sub ++ SubField.all.flatMap (p.partialField rec sub ledsub)

/-- The width in bytes that a telemetry field's own rule gives it (R88, R270 to R296). -/
def TelField.size : TelField → Nat
  | .micros => 4 | .status => 2 | .v0 => 2 | .i0 => 2 | .i1 => 2
  | .accel => 12 | .gyro => 12 | .mag => 12 | .temperature => 2 | .pressure => 4 | .rxPpm => 12
  | .auxChanMask => 1 | .commands => 8 | .fAndT => 16
  | .pidFzMaster => 24 | .pidTxMaster => 24 | .pidTyMaster => 24 | .pidTzMaster => 24
  | .pidFzSlave => 24 | .pidTxSlave => 24 | .pidTySlave => 24 | .pidTzSlave => 24
  | .motorOut => 16 | .kineAngle => 12 | .kineRate => 12 | .kineAltitude => 4 | .loopCount => 4

/-- The sum of the widths of the rows that a mask selects. -/
def stateLenOf (mask : Word) : List TelemetryRow → Nat
  | [] => 0
  | r :: rows => (if mask.getLsbD r.bit then r.size else 0) + stateLenOf mask rows

/-- `StateLen(mask)` (R263). -/
def Params.stateLen (p : Params) (mask : Word) : Nat := stateLenOf mask p.telemetryFields

/-- `STATE_LEN_MAX` (R4). -/
def Params.stateLenMax (p : Params) : Nat := (p.telemetryFields.map TelemetryRow.size).sum

/-- The capacity of a frame class (R147). -/
def Params.cap (p : Params) : FrameClass → Nat
  | .small => p.capSmall
  | .large => p.capLarge

/-- WF1: the type tags are pairwise different. -/
def Params.wf1 (p : Params) : Bool :=
  p.typeCommand != p.typeState && p.typeCommand != p.typeResponse && p.typeState != p.typeResponse

/-- WF2: 24 command bits, pairwise different, each in 0..31. -/
def Params.wf2 (p : Params) : Bool :=
  p.cmdBit.length == 24 && decide p.cmdBit.Nodup && p.cmdBit.all (fun b => decide (b < 32))

/-- WF3: the escape constants. -/
def Params.wf3 (p : Params) : Bool :=
  p.escByte != 0#8 && p.escXor != 0#8 && p.escXor != p.escByte

/-- WF4: a full-config-set command fits the receive buffer. -/
def Params.wf4 (p : Params) : Bool := decide (8 + p.cfgTotal ≤ p.capRx)

/-- WF5: the largest configuration reply fits. -/
def Params.wf5 (p : Params) : Bool := decide (8 + 2 + 2 + p.cfgTotal ≤ p.capLarge)

/-- WF6: the small frames fit. -/
def Params.wf6 (p : Params) : Bool := decide (12 ≤ p.capSmall)

/-- WF7: the largest State frame fits. -/
def Params.wf7 (p : Params) : Bool := decide (8 + p.stateLenMax ≤ p.capLarge)

/-- WF8: the default record has the right length and is valid. -/
def Params.wf8 (p : Params) : Bool :=
  p.cfgDefault.length == p.cfgTotal && p.configValid p.cfgDefault

/-- WF9: the telemetry bits are in 0..31, pairwise different and ascending. -/
def Params.wf9 (p : Params) : Bool :=
  decide ((p.telemetryFields.map TelemetryRow.bit).Pairwise (· < ·)) &&
    p.telemetryFields.all (fun r => decide (r.bit < 32))

/-- WF10: no size is zero (and there are seven entries in `CFG_SIZE`). -/
def Params.wf10 (p : Params) : Bool :=
  decide (1 ≤ p.nameCap) && p.cfgSize.length == 7 && p.cfgSize.all (fun n => decide (1 ≤ n)) &&
    decide (1 ≤ p.ledEntrySize)

/-- WF11: nine submask bits, pairwise different, each in 0..15. -/
def Params.wf11 (p : Params) : Bool :=
  p.subBit.length == 9 && decide p.subBit.Nodup && p.subBit.all (fun b => decide (b < 16))

/-- `NAME_CAP` is 20 or 9 (R4, R160, D9). -/
def Params.wfName (p : Params) : Bool := p.nameCap == 20 || p.nameCap == 9

/-- A well-formed parameter assignment (R5, and the type that R4 gives `NAME_CAP`). -/
def Params.wf (p : Params) : Bool :=
  p.wf1 && p.wf2 && p.wf3 && p.wf4 && p.wf5 && p.wf6 && p.wf7 && p.wf8 && p.wf9 && p.wf10 && p.wf11 &&
    p.wfName

end Sys2Proof
end

