-- ==== Sys2Proof/WellFormed.lean ====
section
/-! DEFINITION. Which instructions are well formed: the operand ranges that the model's own encoding of
the `OP` rows can write down (notes/assumptions/8.md). Whatever the decoder answers is well formed
(Sys2Proof/Laws/Encoding.lean), so no step is refused for it. -/

namespace Sys2Proof

/-- Lengths and counts that fit the 32-bit fields of the model's operand encoding. -/
def fits32 (n : Nat) : Bool := decide (n < 2 ^ 32)

/-- A field type whose size can be written down as an operand. -/
def FieldType.wf : FieldType → Bool
  | .bytes n => fits32 n
  | _ => true

/-- Well-formedness of an instruction's operands. -/
def Instr.wf : Instr → Bool
  | .encode p => fits32 p.length
  | .decode f cap => fits32 f.length && fits32 cap
  | .parseInto ts => fits32 ts.length && ts.all FieldType.wf
  | .append bs => fits32 bs.length
  | .fromString bs => fits32 bs.length
  | _ => true

end Sys2Proof
end

