-- ==== Sys2Proof/Decode.lean ====
section
/-! DEFINITION. Decoder and encoder. Rows of the formats CMD, SUB, STATE and HDR are matched against
their words as R99 says, with the table's own bit positions; rows of the format OP are selected by no
bit pattern, and their bytes (a selector and the operands) are the model's own
(notes/assumptions/8.md). -/

namespace Sys2Proof

/-- Why bytes name no instruction. -/
inductive DecodeError where
  /-- the byte count is not that of the format's word -/
  | wordLength
  /-- the word has no bit of a row set: undefined bits select nothing (R91, R92, R93) -/
  | selectsNothing
  /-- no row has this type tag (R79) -/
  | unknownTag
  /-- no sub-field procedure has this code -/
  | unknownWalk
  /-- no OP row has this selector -/
  | unknownOperation
  /-- the operands of an OP row are short, too long, or hold an unknown code -/
  | badOperands
deriving DecidableEq, Repr

/-! ### The bit rows of the table (R80, R84, R88) -/

/-- The 24 CMD rows: bit and operation, in ascending `fields.order` (R80, R99). -/
def cmdRows : List (Nat × Instr) :=
  [(1, .setEepromData), (2, .reinitEepromData), (3, .reqEepromData), (4, .reqEnableIteration),
   (5, .motorOverrideSpeed0), (6, .motorOverrideSpeed1), (7, .motorOverrideSpeed2),
   (8, .motorOverrideSpeed3), (9, .motorOverrideSpeed4), (10, .motorOverrideSpeed5),
   (11, .motorOverrideSpeed6), (12, .motorOverrideSpeed7), (13, .setCommandOverride),
   (14, .setStateMask), (15, .setStateDelay), (16, .setSdWriteDelay), (17, .setLed),
   (18, .setSerialRc), (19, .setCardRecording), (20, .setPartialEepromData),
   (21, .reinitPartialEepromData), (22, .reqPartialEepromData), (23, .reqCardRecordingState),
   (0, .reqResponse)]

/-- The nine SUB rows (R84, R99), for one of the procedures that walk them. -/
def subRows (k : SubWalk) : List (Nat × Instr) :=
  [(0, .version k), (1, .pcb k), (2, .mixTable k), (3, .magBias k), (4, .channel k),
   (5, .pidParameters k), (6, .stateParameters k), (7, .ledStates k), (8, .deviceName k)]

/-- The 27 STATE rows (R88, R99). -/
def stateRows : List (Nat × Instr) :=
  [(0, .micros), (1, .status), (2, .v0), (3, .i0), (4, .i1), (5, .accel), (6, .gyro), (7, .mag),
   (8, .temperature), (9, .pressure), (10, .rxPpm), (11, .auxChanMask), (12, .commands),
   (13, .fAndT), (15, .pidFzMaster), (16, .pidTxMaster), (17, .pidTyMaster), (18, .pidTzMaster),
   (19, .pidFzSlave), (20, .pidTxSlave), (21, .pidTySlave), (22, .pidTzSlave), (23, .motorOut),
   (24, .kineAngle), (25, .kineRate), (26, .kineAltitude), (27, .loopCount)]

/-- The rows that apply to a word, `(word & mask) = match`, in ascending order (R99). -/
def selectRows (w : Nat) : List (Nat × Instr) → List Instr
  | [] => []
  | r :: rows => if w.testBit r.1 then r.2 :: selectRows w rows else selectRows w rows

/-- The code of a sub-field procedure in a SUB stimulus. -/
def SubWalk.code : SubWalk → Byte
  | .parse => 0#8
  | .reset => 1#8
  | .write => 2#8

/-- The sub-field procedure with a given code. -/
def walkOfCode (c : Byte) : Option SubWalk :=
  if c = 0#8 then some .parse else if c = 1#8 then some .reset else if c = 2#8 then some .write else none

/-! ### Operand bytes of the OP rows -/

/-- The number in the first `n` bytes, and the rest. -/
def getLe (n : Nat) (bs : List Byte) : Option (Nat × List Byte) :=
  if n ≤ bs.length then some (fromLe (bs.take n), bs.drop n) else none

/-- A byte sequence preceded by its length in four bytes, and the rest. -/
def getBytes (bs : List Byte) : Option (List Byte × List Byte) :=
  match getLe 4 bs with
  | none => none
  | some (n, r) => if n ≤ r.length then some (r.take n, r.drop n) else none

/-- One field type, and the rest. -/
def getType : List Byte → Option (FieldType × List Byte)
  | [] => none
  | c :: r =>
    match c.toNat with
    | 0 => some (.u8, r)
    | 1 => some (.i8, r)
    | 2 => some (.u16, r)
    | 3 => some (.i16, r)
    | 4 => some (.u32, r)
    | 5 => some (.i32, r)
    | 6 => some (.f32, r)
    | 7 => some (.f32x3, r)
    | 8 => (getLe 4 r).map fun x => (.bytes x.1, x.2)
    | 9 => some (.tag, r)
    | _ => none

/-- `n` field types, and the rest. -/
def getTypes : Nat → List Byte → Option (List FieldType × List Byte)
  | 0, bs => some ([], bs)
  | n + 1, bs =>
    match getType bs with
    | none => none
    | some (t, r) => (getTypes n r).map fun x => (t :: x.1, x.2)

/-- The bytes of one field type. -/
def putType : FieldType → List Byte
  | .u8 => [0#8]
  | .i8 => [1#8]
  | .u16 => [2#8]
  | .i16 => [3#8]
  | .u32 => [4#8]
  | .i32 => [5#8]
  | .f32 => [6#8]
  | .f32x3 => [7#8]
  | .bytes n => 8#8 :: leN 4 n
  | .tag => [9#8]

/-- The bytes of a byte sequence operand. -/
def putBytes (bs : List Byte) : List Byte := leN 4 bs.length ++ bs

/-- A decoded operand whose bytes are used up. -/
def used {α : Type} (o : Option (α × List Byte)) : Option α :=
  match o with
  | some (a, []) => some a
  | _ => none

/-- A one-byte code 0 or 1, with nothing after it. -/
def usedBit : List Byte → Option Bool
  | [c] => if c = 0#8 then some false else if c = 1#8 then some true else none
  | _ => none

/-- An OP row from its selector and operand bytes (notes/assumptions/8.md). -/
def opOf (sel : Nat) (bs : List Byte) : Option Instr :=
  match sel with
  | 0 => (used (getBytes bs)).map .encode
  | 1 =>
    match getBytes bs with
    | some (f, r) => (used (getLe 4 r)).map (.decode f)
    | none => none
  | 2 => (used (getLe 1 bs)).map fun v => .rxByte (BitVec.ofNat 8 v)
  | 3 => if bs = [] then some .process else none
  | 4 =>
    match getLe 4 bs with
    | some (ts, r) =>
      match getLe 4 r with
      | some (m, r') => (usedBit r').map (.emit (BitVec.ofNat 32 ts) (BitVec.ofNat 32 m))
      | none => none
    | none => none
  | 5 => if bs = [] then some .reset else none
  | 6 =>
    match getLe 4 bs with
    | some (n, r) => (used (getTypes n r)).map .parseInto
    | none => none
  | 7 => (used (getBytes bs)).map .append
  | 8 =>
    match getLe 4 bs with
    | some (t, r) =>
      match getLe 4 r with
      | some (m, r') =>
        (usedBit r').map fun b =>
          .beginFrame (if b then .large else .small) (BitVec.ofNat 32 t) (BitVec.ofNat 32 m)
      | none => none
    | none => none
  | 9 => (usedBit bs).map fun b => .send (if b then .log else .wire)
  | 10 => if bs = [] then some .verify else none
  | 11 => (used (getBytes bs)).map .fromString
  | 12 => if bs = [] then some .readFull else none
  | 13 => if bs = [] then some .writeFull else none
  | 14 =>
    match getLe 2 bs with
    | some (a, r) =>
      (used (getLe 2 r)).map fun b => .writePartial (BitVec.ofNat 16 a) (BitVec.ofNat 16 b)
    | none => none
  | 15 => (used (getLe 2 bs)).map fun v => .parsePartial (BitVec.ofNat 16 v)
  | 16 => (used (getLe 2 bs)).map fun v => .resetPartial (BitVec.ofNat 16 v)
  | 17 => if bs = [] then some .configValid else none
  | 18 => if bs = [] then some .commit else none
  | 19 => (used (getLe 4 bs)).map fun v => .stateLen (BitVec.ofNat 32 v)
  | _ => none

/-- The OP row in the bytes, or why there is none. -/
def decodeOp (bs : List Byte) : Except DecodeError Instr :=
  match bs with
  | [] => .error .wordLength
  | c :: r =>
    if 20 ≤ c.toNat then .error .unknownOperation
    else
      match opOf c.toNat r with
      | some i => .ok i
      | none => .error .badOperands

/-- A non-empty selection, or the error that the word selects nothing. -/
def selection (is : List Instr) : Except DecodeError (List Instr) :=
  match is with
  | [] => .error .selectsNothing
  | is => .ok is

/-- Every row that the bytes select, in the order R99 executes them. -/
def decodeAll (f : Format) (bs : List Byte) : Except DecodeError (List Instr) :=
  match f with
  | .hdr =>
    if bs.length = 4 then
      match fromLe bs with
      | 0 => .ok [.typeCommand]
      | 1 => .ok [.typeState]
      | 2 => .ok [.typeResponse]
      | _ => .error .unknownTag
    else .error .wordLength
  | .cmd => if bs.length = 4 then selection (selectRows (fromLe bs) cmdRows) else .error .wordLength
  | .sub =>
    match bs with
    | [b0, b1, c] =>
      match walkOfCode c with
      | some k => selection (selectRows (fromLe [b0, b1]) (subRows k))
      | none => .error .unknownWalk
    | _ => .error .wordLength
  | .state =>
    if bs.length = 4 then selection (selectRows (fromLe bs) stateRows) else .error .wordLength
  | .op => (decodeOp bs).map fun i => [i]

/-- The instruction that the bytes name: the first row that applies (R99). Total; where no row applies
it says why. -/
def decode (f : Format) (bs : List Byte) : Except DecodeError Instr :=
  match decodeAll f bs with
  | .ok (i :: _) => .ok i
  | .ok [] => .error .selectsNothing
  | .error e => .error e

/-! ### The encoder -/

/-- The bytes of a CMD or STATE word with one bit set. -/
def bitWord (b : Nat) : List Byte := leN 4 (2 ^ b)

/-- The bytes of a SUB word with one bit set, and the procedure's code. -/
def subWord (b : Nat) (k : SubWalk) : List Byte := leN 2 (2 ^ b) ++ [k.code]

/-- A Bool as a one-byte code. -/
def bitCode (b : Bool) : Byte := if b then 1#8 else 0#8

/-- The word of an instruction and the format it is matched in, from the rows of the table. -/
def encode : Instr → Format × List Byte
  | .setEepromData => (.cmd, bitWord 1)
  | .reinitEepromData => (.cmd, bitWord 2)
  | .reqEepromData => (.cmd, bitWord 3)
  | .reqEnableIteration => (.cmd, bitWord 4)
  | .motorOverrideSpeed0 => (.cmd, bitWord 5)
  | .motorOverrideSpeed1 => (.cmd, bitWord 6)
  | .motorOverrideSpeed2 => (.cmd, bitWord 7)
  | .motorOverrideSpeed3 => (.cmd, bitWord 8)
  | .motorOverrideSpeed4 => (.cmd, bitWord 9)
  | .motorOverrideSpeed5 => (.cmd, bitWord 10)
  | .motorOverrideSpeed6 => (.cmd, bitWord 11)
  | .motorOverrideSpeed7 => (.cmd, bitWord 12)
  | .setCommandOverride => (.cmd, bitWord 13)
  | .setStateMask => (.cmd, bitWord 14)
  | .setStateDelay => (.cmd, bitWord 15)
  | .setSdWriteDelay => (.cmd, bitWord 16)
  | .setLed => (.cmd, bitWord 17)
  | .setSerialRc => (.cmd, bitWord 18)
  | .setCardRecording => (.cmd, bitWord 19)
  | .setPartialEepromData => (.cmd, bitWord 20)
  | .reinitPartialEepromData => (.cmd, bitWord 21)
  | .reqPartialEepromData => (.cmd, bitWord 22)
  | .reqCardRecordingState => (.cmd, bitWord 23)
  | .reqResponse => (.cmd, bitWord 0)
  | .version k => (.sub, subWord 0 k)
  | .pcb k => (.sub, subWord 1 k)
  | .mixTable k => (.sub, subWord 2 k)
  | .magBias k => (.sub, subWord 3 k)
  | .channel k => (.sub, subWord 4 k)
  | .pidParameters k => (.sub, subWord 5 k)
  | .stateParameters k => (.sub, subWord 6 k)
  | .ledStates k => (.sub, subWord 7 k)
  | .deviceName k => (.sub, subWord 8 k)
  | .micros => (.state, bitWord 0)
  | .status => (.state, bitWord 1)
  | .v0 => (.state, bitWord 2)
  | .i0 => (.state, bitWord 3)
  | .i1 => (.state, bitWord 4)
  | .accel => (.state, bitWord 5)
  | .gyro => (.state, bitWord 6)
  | .mag => (.state, bitWord 7)
  | .temperature => (.state, bitWord 8)
  | .pressure => (.state, bitWord 9)
  | .rxPpm => (.state, bitWord 10)
  | .auxChanMask => (.state, bitWord 11)
  | .commands => (.state, bitWord 12)
  | .fAndT => (.state, bitWord 13)
  | .pidFzMaster => (.state, bitWord 15)
  | .pidTxMaster => (.state, bitWord 16)
  | .pidTyMaster => (.state, bitWord 17)
  | .pidTzMaster => (.state, bitWord 18)
  | .pidFzSlave => (.state, bitWord 19)
  | .pidTxSlave => (.state, bitWord 20)
  | .pidTySlave => (.state, bitWord 21)
  | .pidTzSlave => (.state, bitWord 22)
  | .motorOut => (.state, bitWord 23)
  | .kineAngle => (.state, bitWord 24)
  | .kineRate => (.state, bitWord 25)
  | .kineAltitude => (.state, bitWord 26)
  | .loopCount => (.state, bitWord 27)
  | .typeCommand => (.hdr, leN 4 0)
  | .typeState => (.hdr, leN 4 1)
  | .typeResponse => (.hdr, leN 4 2)
  | .encode p => (.op, 0#8 :: putBytes p)
  | .decode f cap => (.op, 1#8 :: (putBytes f ++ leN 4 cap))
  | .rxByte b => (.op, [2#8, b])
  | .process => (.op, [3#8])
  | .emit ts m l => (.op, 4#8 :: (le4 ts ++ le4 m ++ [bitCode l]))
  | .reset => (.op, [5#8])
  | .parseInto ts => (.op, 6#8 :: (leN 4 ts.length ++ ts.flatMap putType))
  | .append bs => (.op, 7#8 :: putBytes bs)
  | .beginFrame c t m => (.op, 8#8 :: (le4 t ++ le4 m ++ [bitCode (c == .large)]))
  | .send d => (.op, [9#8, bitCode (d == .log)])
  | .verify => (.op, [10#8])
  | .fromString bs => (.op, 11#8 :: putBytes bs)
  | .readFull => (.op, [12#8])
  | .writeFull => (.op, [13#8])
  | .writePartial a b => (.op, 14#8 :: (le2 a ++ le2 b))
  | .parsePartial a => (.op, 15#8 :: le2 a)
  | .resetPartial a => (.op, 16#8 :: le2 a)
  | .configValid => (.op, [17#8])
  | .commit => (.op, [18#8])
  | .stateLen m => (.op, 19#8 :: le4 m)

/-! ### Bare words of the opcode table -/

/-- Which word a bare table word is read as. The table's CMD, SUB, STATE and HDR words overlap and a
bare word does not say which it is; the model reads a whole 32-bit tag value as the type word, a
16-bit word with a submask bit as a submask, any other word with an operation's bit as a command mask,
and the rest as a State mask. DESIGN CHOICE: notes/assumptions/9.md. -/
def tableFormat (nbits w : Nat) : Format :=
  if nbits = 32 ∧ w < 3 then .hdr
  else if nbits = 16 ∧ selectRows w (subRows .parse) ≠ [] then .sub
  else if selectRows w cmdRows ≠ [] then .cmd
  else .state

/-- The bytes of a bare table word in the format it is read as; the bits above it are zero. -/
def tableBytes (f : Format) (w : Nat) : List Byte :=
  match f with
  | .sub => leN 2 w ++ [0#8]
  | _ => leN 4 w

/-- The instruction that the decoder reads from a bare word of the opcode table. -/
def decodeTableWord (nbits w : Nat) : Option Instr :=
  match decode (tableFormat nbits w) (tableBytes (tableFormat nbits w) w) with
  | .ok i => some i
  | .error _ => none

end Sys2Proof
end

