-- ==== Sys2Proof/Machine/State.lean ====
section
/-! DEFINITION. The state of the machine: the block's registers and buffers (10_state.md), the
parameters (R4), the collaborators as far as a contract of the spec speaks of them (R24, R330 to R334),
the event trace (R314), and what the environment offers next (R10). All of it plain data. -/

namespace Sys2Proof.Machine

/-- The three internal byte-addressed spaces (R20). -/
inductive Space where
  | rbuf | wbuf | wcfg
deriving DecidableEq, Repr

/-- Why the machine stops with a fault. -/
inductive Fault where
  /-- Raised by the memory operations on an access to an address that a space does not have (R41 to
  R43). Safe: the spec gives no such access and no reachable state makes one
  (notes/assumptions/22.md). -/
  | outsideSpace (sp : Space) (addr : Nat) (n : Nat)
deriving DecidableEq, Repr

/-- Why a stimulus is refused. -/
inductive Refusal where
  /-- Answered by an arm of `exec` whose instruction has no meaning yet. Safe. -/
  | notModelled (mnemonic : String)
  /-- Answered by `step` when the parameters break a constraint of R5, which says that a model gives
  no run to such an assignment. Safe. -/
  | illFormedParameters
  /-- Answered by `step` when the offered bytes name no instruction. Safe: the spec has no such
  request (notes/assumptions/8.md). -/
  | undecodable (e : DecodeError)
  /-- Answered by `step` when the collaborators' new state is not one that their contracts allow
  (R330 to R332). Safe (notes/assumptions/13.md). -/
  | brokenContract
deriving DecidableEq, Repr

/-- A byte space: (address, byte) cells with strictly rising addresses; an address that is not listed
reads 0x00, and no cell holds 0x00 (notes/assumptions/4.md). -/
structure Memory where
  cells : List Host.Cell
deriving DecidableEq, Repr

/-- An `f32x3` value: three 32-bit patterns (R90). -/
structure Triple where
  x : Word
  y : Word
  z : Word
deriving DecidableEq, Repr

/-- A PID tuple (R88, R284). -/
structure PidTuple where
  lastTime : Word
  input : Word
  setpoint : Word
  pTerm : Word
  iTerm : Word
  dTerm : Word
deriving DecidableEq, Repr

/-- The four command axes (R282). -/
structure Axes where
  throttle : Half
  pitch : Half
  roll : Half
  yaw : Half
deriving DecidableEq, Repr

/-- The four force/torque outputs (R283). -/
structure ForceTorque where
  fz : Word
  tx : Word
  ty : Word
  tz : Word
deriving DecidableEq, Repr

/-- The telemetry snapshot: one value for each field but `MICROS` (R264). -/
structure Snapshot where
  status : Half
  v0 : Half
  i0 : Half
  i1 : Half
  accel : Triple
  gyro : Triple
  mag : Triple
  temperature : Half
  pressure : Word
  rxPpm : Vector Half 6
  auxChanMask : Byte
  commands : Axes
  fAndT : ForceTorque
  pidFzMaster : PidTuple
  pidTxMaster : PidTuple
  pidTyMaster : PidTuple
  pidTzMaster : PidTuple
  pidFzSlave : PidTuple
  pidTxSlave : PidTuple
  pidTySlave : PidTuple
  pidTzSlave : PidTuple
  /-- `MotorOut[0..7]` (R46, R292). -/
  motorOut : Vector Half 8
  kineAngle : Triple
  kineRate : Triple
  kineAltitude : Word
  loopCount : Word
  /-- By mask bit, the bytes of the values of those rows of `TELEMETRY_FIELDS` that are not as R88 lists
  them: another width, or another name (notes/assumptions/18.md). -/
  others : List (Nat × List Byte) := []
deriving DecidableEq, Repr

/-- What a `Storage.write` answers (R330). On `Err` the store holds what the environment chose: its
old content (`none`, the default) or some other record. -/
inductive StoreAnswer where
  | ok
  | err (after : Option (List Byte))
deriving DecidableEq, Repr

/-- The collaborators' state that the contracts of R330 to R332 speak of. -/
structure Env where
  /-- PERSIST (R45). -/
  persist : List Byte
  /-- LIVECFG (R45). -/
  liveCfg : List Byte
  /-- The live system's telemetry values, `MotorOut` among them (R46, R264). -/
  live : Snapshot
  logOpen : Bool
  logLocked : Bool
  /-- What the last `Log.setLock` asked for; `none` before the first one (R332). -/
  lockSet : Option Bool
  /-- The answers of the next `Storage.write` transactions; after the last, `Ok`. -/
  storeAnswers : List StoreAnswer
  /-- The log's open state after each of the next `open` and `close` transactions; after the last,
  what was asked for. -/
  logAnswers : List Bool
deriving DecidableEq, Repr

/-- The error outcomes (R310). -/
inductive ErrClass where
  | frame | parse | valid | collab | overflow
deriving DecidableEq, Repr

/-- The operation for which an error outcome is recorded (R8, R314): `RX_BYTE` with the frame it closed
(R117), `PROCESS` at the header (R200), a dispatcher operation, `EMIT`, or a unit row `Send` or `Commit`
that the environment offers by itself. -/
inductive Site where
  | frame (f : List Byte)
  | header
  | op (o : CmdOp)
  | emit
  | send
  | commit
deriving DecidableEq, Repr

/-- The events of a step's trace: error outcomes and transactions (R314, R330 to R333). The transactions
that hand on a whole parsed tuple carry its values unchanged (R205, D28). -/
inductive Event where
  | raised (c : ErrClass) (w : Site)
  | storageRead
  | storageWrite (rec : List Byte) (ok : Bool)
  | applyConfig (rec : List Byte)
  | readConfig
  | snapshotTelemetry
  | motorEnableIteration (r : List FieldVal)
  | setMotorOut (i : Fin 8) (speed : Half)
  | setCommandOverride (r : List FieldVal)
  | setLed (r : List FieldVal)
  | setSerialRc (r : List FieldVal)
  | logIsOpen (b : Bool)
  | logIsLocked (b : Bool)
  | logOpen
  | logClose
  | logSetLock (b : Bool)
  | logWrite (bs : List Byte)
  | writeBytes (bs : List Byte)
deriving DecidableEq, Repr

/-- What a unit operation returns to its caller (notes/assumptions/23.md). -/
inductive OpResult where
  | none
  | ok
  | fail
  | bytes (bs : List Byte)
  | tuple (vs : List FieldVal)
  | flag (b : Bool)
  | count (n : Nat)
deriving DecidableEq, Repr

/-- The control registers, the block's only persisted ones (R17, R18, R19). -/
structure Control where
  telemetryMask : Word
  sendInterval : Half
  logInterval : Half
deriving DecidableEq, Repr

/-- The receive framer and queue (R21, R22): the abstract register `rx_acc` and, beside it, the
registers of the streaming realisation (R119; notes/assumptions/20.md). -/
structure Framer where
  /-- `rx_acc` -/
  acc : List Byte
  /-- `rx_fill[0 : rx_n]` -/
  fill : List Byte
  /-- `rx_esc` -/
  esc : Bool
  /-- `rx_bad` -/
  bad : Bool
  /-- `rx_queue`, oldest first -/
  queue : List (List Byte)
deriving DecidableEq, Repr

/-- `rx_n`, the count of the streaming realisation (R119). -/
def Framer.n (f : Framer) : Nat := f.fill.length

/-- `rx_pending`, the output that says a frame is queued (R336). -/
def Framer.pending (f : Framer) : Bool := !f.queue.isEmpty

/-- The Field Reader (R140): `rbuf`, `rlen`, `rpos`. -/
structure Reader where
  buf : Memory
  len : Nat
  pos : Nat
deriving DecidableEq, Repr

/-- The dispatcher's working registers (R11, R13 to R15), with the local `rec` of R242 and R245
(here `record`). -/
structure Disp where
  type : Word
  m : Word
  ack : Word
  seq : Fin 25
  sub : Half
  ledsub : Half
  ok : Bool
  wcfg : Memory
  record : List Byte
deriving DecidableEq, Repr

/-- The transmit serialiser (R23): idle, or at an index of `wbuf` with or without a pending second byte
of an escape pair. -/
inductive TxState where
  | idle
  | busy (index : Nat) (pending : Bool)
deriving DecidableEq, Repr

/-- The Field Writer (R11, R16, R23): `wbuf`, `wlen`, `wcap`, `wovf` and the serialiser. -/
structure Writer where
  buf : Memory
  len : Nat
  cap : Nat
  ovf : Bool
  tx : TxState
deriving DecidableEq, Repr

/-- The Telemetry Encoder's working registers (R11, R261): `eff`, and the `ts` and `snap` of the `EMIT`
in progress. -/
structure Telem where
  eff : Word
  ts : Word
  snap : Snapshot
deriving DecidableEq, Repr

/-- What leaves the block: the bytes given to the link and to the log so far, the trace of the step in
progress (R314), and what the last unit operation returned. -/
structure Out where
  wire : List Byte
  log : List Byte
  trace : List Event
  result : OpResult
deriving DecidableEq, Repr

/-- What the environment does next (R10, R56): offers the bytes of an instruction, or changes the
collaborators' state between two steps. -/
inductive Stimulus where
  | instr (f : Format) (bs : List Byte)
  | collaborators (e : Env)
deriving DecidableEq, Repr

/-- The state of the machine. -/
structure State where
  params : Params
  ctl : Control
  rx : Framer
  rd : Reader
  disp : Disp
  wr : Writer
  tel : Telem
  env : Env
  out : Out
  /-- What the environment does next, oldest first (notes/assumptions/6.md). -/
  stimuli : List Stimulus
deriving DecidableEq, Repr

/-- The empty space: every byte reads 0x00. -/
def Memory.empty : Memory := ⟨[]⟩

def Triple.zero : Triple := ⟨0, 0, 0⟩

def PidTuple.zero : PidTuple := ⟨0, 0, 0, 0, 0, 0⟩

/-- A snapshot of zeros (notes/assumptions/3.md, 30.md). -/
def Snapshot.zero : Snapshot where
  status := 0
  v0 := 0
  i0 := 0
  i1 := 0
  accel := .zero
  gyro := .zero
  mag := .zero
  temperature := 0
  pressure := 0
  rxPpm := Vector.replicate 6 0
  auxChanMask := 0
  commands := ⟨0, 0, 0, 0⟩
  fAndT := ⟨0, 0, 0, 0⟩
  pidFzMaster := .zero
  pidTxMaster := .zero
  pidTyMaster := .zero
  pidTzMaster := .zero
  pidFzSlave := .zero
  pidTxSlave := .zero
  pidTySlave := .zero
  pidTzSlave := .zero
  motorOut := Vector.replicate 8 0
  kineAngle := .zero
  kineRate := .zero
  kineAltitude := 0
  loopCount := 0
  others := []

/-- The receive framer and queue after reset (R30). -/
def Framer.reset : Framer := ⟨[], [], false, false, []⟩

/-- The control registers after reset (R30, R350): the three reset parameters. -/
def Control.reset (p : Params) : Control :=
  ⟨p.resetTelemetryMask, p.resetSendInterval, p.resetLogInterval⟩

/-- The machine right after reset (R30, R350): control registers at their reset parameters, framer and
queue empty, serialiser idle, buffers with nothing listed; every working register, to which R30 gives
no value, zero (DESIGN CHOICE, unsafe: notes/assumptions/3.md); the collaborators as in S0 of
95_test_vectors.md (DESIGN CHOICE, unsafe: notes/assumptions/30.md); nothing offered. -/
def State.reset : State where
  params := Config.params
  ctl := Control.reset Config.params
  rx := Framer.reset
  rd := ⟨Memory.empty, 0, 0⟩
  disp := ⟨0, 0, 0, 24, 0, 0, false, Memory.empty, []⟩
  wr := ⟨Memory.empty, 0, 0, false, .idle⟩
  tel := ⟨0, 0, Snapshot.zero⟩
  env := ⟨Config.testRecord, Config.testRecord, Snapshot.zero, false, false, none, [], []⟩
  out := ⟨[], [], [], .none⟩
  stimuli := []

end Sys2Proof.Machine
end

