-- ==== Sys2Proof/Machine/Ops.lean ====
section
/-! DEFINITION. The named operations over memory, registers and collaborators: `MemRead` and `MemWrite`
(R8, R40 to R43), the one shared operation that takes an error outcome (`raise`, R8, R310, R312), the
transactions of R330 to R333, and the Field Writer (R146 to R148). -/

namespace Sys2Proof.Machine

/-- What an operation answers: a value, or the fault that stops the machine. -/
abbrev Res (α : Type) := Except Fault α

/-- An operation's answer as an outcome of a step. -/
def outcome : Res State → Host.Outcome State Fault Refusal
  | .ok s => .next s
  | .error e => .fault e

/-- Operations one after the other, each on the state the one before left (R55). -/
def runAll : List (State → Res State) → State → Res State
  | [], s => .ok s
  | f :: fs, s => (f s).bind (runAll fs)

/-! ### Byte spaces -/

/-- The byte at an address: that of its cell, 0x00 where none is listed. -/
def readCells (a : Nat) : List Host.Cell → Byte
  | [] => 0#8
  | c :: t => if c.1 = a then c.2 else readCells a t

/-- Write one byte, keeping the addresses rising and the value 0x00 unlisted. -/
def writeCells (a : Nat) (v : Byte) : List Host.Cell → List Host.Cell
  | [] => if v = 0#8 then [] else [(a, v)]
  | c :: t =>
    if a < c.1 then (if v = 0#8 then c :: t else (a, v) :: c :: t)
    else if c.1 = a then (if v = 0#8 then t else (a, v) :: t)
    else c :: writeCells a v t

/-- The byte of a space at an address. -/
def Memory.read (m : Memory) (a : Nat) : Byte := readCells a m.cells

/-- A space with one byte written. -/
def Memory.write (m : Memory) (a : Nat) (v : Byte) : Memory := ⟨writeCells a v m.cells⟩

/-- The `n` bytes from an address upward. -/
def Memory.readBytes (m : Memory) : Nat → Nat → List Byte
  | _, 0 => []
  | a, n + 1 => m.read a :: m.readBytes (a + 1) n

/-- A space with a byte sequence written from an address upward. -/
def Memory.writeBytes (m : Memory) : Nat → List Byte → Memory
  | _, [] => m
  | a, v :: t => (m.write a v).writeBytes (a + 1) t

/-- The canonical form of the cells above a bound: addresses strictly rising, no cell holding 0x00. -/
def cellsWf : Nat → List Host.Cell → Bool
  | _, [] => true
  | lo, c :: t => decide (lo ≤ c.1) && c.2 != 0#8 && cellsWf (c.1 + 1) t

/-- The canonical form of a space. -/
def Memory.wf (m : Memory) : Bool := cellsWf 0 m.cells

/-- The space of a state (R20). -/
def State.space (s : State) : Space → Memory
  | .rbuf => s.rd.buf
  | .wbuf => s.wr.buf
  | .wcfg => s.disp.wcfg

/-- The size of a space (R20, R41, R42, R43). -/
def State.spaceSize (s : State) : Space → Nat
  | .rbuf => s.params.capRx
  | .wbuf => s.params.capLarge
  | .wcfg => s.params.cfgTotal

/-- A state with a space replaced. -/
def State.setSpace (s : State) (sp : Space) (m : Memory) : State :=
  match sp with
  | .rbuf => { s with rd := { s.rd with buf := m } }
  | .wbuf => { s with wr := { s.wr with buf := m } }
  | .wcfg => { s with disp := { s.disp with wcfg := m } }

/-- `n` bytes from address `a` lie inside a space of the given size. -/
def inSpace (size a n : Nat) : Bool := n == 0 || decide (a + n ≤ size)

/-- `MemRead(space, addr, n)` (R8). -/
def memRead (sp : Space) (a n : Nat) (s : State) : Res (List Byte) :=
  if inSpace (s.spaceSize sp) a n then .ok ((s.space sp).readBytes a n)
  else .error (.outsideSpace sp a n)

/-- `MemWrite(space, addr, len(bs), bs)` (R8). -/
def memWrite (sp : Space) (a : Nat) (bs : List Byte) (s : State) : Res State :=
  if inSpace (s.spaceSize sp) a bs.length then .ok (s.setSpace sp ((s.space sp).writeBytes a bs))
  else .error (.outsideSpace sp a bs.length)

/-! ### The trace and the error outcomes -/

/-- Append an event to the step's trace (R314). -/
def State.record (s : State) (e : Event) : State :=
  { s with out := { s.out with trace := s.out.trace ++ [e] } }

/-- Taking an error outcome (R8 `raise`, R310, R312): it is recorded, and nothing else changes. No
cause register, no saved position, no mode, no handler; what follows is stated by the rule that raises
it, so there is no return either. -/
def State.raise (s : State) (c : ErrClass) (w : Site) : State := s.record (.raised c w)

/-- Leave a unit operation's result for its caller (notes/assumptions/23.md). -/
def State.setResult (s : State) (r : OpResult) : State := { s with out := { s.out with result := r } }

/-! ### Transactions with the collaborators (R330 to R333) -/

/-- `Storage.read()` (R330): returns PERSIST. -/
def storageRead (s : State) : State × List Byte := (s.record .storageRead, s.env.persist)

/-- PERSIST after a `Storage.write` of `rec` (R330). -/
def StoreAnswer.after (a : StoreAnswer) (old rec : List Byte) : List Byte :=
  match a with
  | .ok => rec
  | .err none => old
  | .err (some r) => r

/-- Whether the answer is `Ok`. -/
def StoreAnswer.isOk : StoreAnswer → Bool
  | .ok => true
  | .err _ => false

/-- The answer to the next `Storage.write`; after the last listed one, `Ok` (notes/assumptions/14.md). -/
def Env.storeAnswer (e : Env) : StoreAnswer := e.storeAnswers.headD .ok

/-- `Storage.write(record) -> Ok | Err` (R330). -/
def storageWrite (rec : List Byte) (s : State) : State × Bool :=
  ({ s with env := { s.env with persist := s.env.storeAnswer.after s.env.persist rec,
                                storeAnswers := s.env.storeAnswers.tail } }.record
      (.storageWrite rec s.env.storeAnswer.isOk), s.env.storeAnswer.isOk)

/-- `LiveSystem.applyConfig(record)` (R331): LIVECFG <- record. -/
def applyConfig (rec : List Byte) (s : State) : State :=
  { s with env := { s.env with liveCfg := rec } }.record (.applyConfig rec)

/-- `LiveSystem.readConfig()` (R331): returns LIVECFG. -/
def readConfig (s : State) : State × List Byte := (s.record .readConfig, s.env.liveCfg)

/-- `LiveSystem.snapshotTelemetry()` (R264, R331). -/
def snapshotTelemetry (s : State) : State × Snapshot := (s.record .snapshotTelemetry, s.env.live)

/-- The bytes of the value that a snapshot holds for a row that is not as R88 lists it, `size` of them
(R264; notes/assumptions/18.md). -/
def Snapshot.otherBytes (n : Snapshot) (r : TelemetryRow) : List Byte :=
  (List.range r.size).map fun i => ((n.others.lookup r.bit).getD []).getD i 0#8

/-- The snapshot holds a value of the row's width (R264). -/
def Snapshot.hasOther (n : Snapshot) (r : TelemetryRow) : Bool :=
  match n.others.lookup r.bit with
  | none => false
  | some bs => bs.length == r.size

/-- `LiveSystem.setMotorOut(i, speed)` (R331): the other seven entries are unchanged. -/
def setMotorOut (i : Fin 8) (speed : Half) (s : State) : State :=
  { s with env := { s.env with live :=
      { s.env.live with motorOut := s.env.live.motorOut.set i speed } } }.record (.setMotorOut i speed)

/-- `Log.isOpen()` (R332). -/
def logIsOpen (s : State) : State × Bool := (s.record (.logIsOpen s.env.logOpen), s.env.logOpen)

/-- `Log.isLocked()` (R332). -/
def logIsLocked (s : State) : State × Bool := (s.record (.logIsLocked s.env.logLocked), s.env.logLocked)

/-- The log's open state after a request to make it `b`: the environment's next listed answer, and
after the last one what was asked for (R332; notes/assumptions/15.md). -/
def logAsk (b : Bool) (s : State) : State :=
  { s with env := { s.env with logOpen := s.env.logAnswers.headD b,
                               logAnswers := s.env.logAnswers.tail } }

/-- `Log.open()` (R332). -/
def logOpen (s : State) : State := (logAsk true s).record .logOpen

/-- `Log.close()` (R332). -/
def logClose (s : State) : State := (logAsk false s).record .logClose

/-- `Log.setLock(b)` (R332): after it `isLocked() = b`, until the next `setLock`. -/
def logSetLock (b : Bool) (s : State) : State :=
  { s with env := { s.env with logLocked := b, lockSet := some b } }.record (.logSetLock b)

/-- `Log.write(bytes)` (R332): appends the bytes to the log. -/
def logWrite (bs : List Byte) (s : State) : State :=
  { s with out := { s.out with log := s.out.log ++ bs } }.record (.logWrite bs)

/-- `Transport.writeBytes(bytes)` (R333). -/
def writeBytes (bs : List Byte) (s : State) : State :=
  { s with out := { s.out with wire := s.out.wire ++ bs } }.record (.writeBytes bs)

/-! ### The Field Writer (R146 to R148) -/

/-- `Append(s)` with its result (R146). -/
def append (bs : List Byte) (s : State) : Res (State × Bool) :=
  if s.wr.cap < s.wr.len + bs.length then .ok ({ s with wr := { s.wr with ovf := true } }, false)
  else
    (memWrite .wbuf s.wr.len bs s).map fun t =>
      ({ t with wr := { t.wr with len := t.wr.len + bs.length } }, true)

/-- `Append(s)` where the rule does not look at the result. -/
def put (bs : List Byte) (s : State) : Res State := (append bs s).map Prod.fst

/-- `BeginFrame(cap, type, mask)` (R147). -/
def beginFrame (c : FrameClass) (type mask : Word) (s : State) : Res State :=
  (put (le4 type) { s with wr := { s.wr with cap := s.params.cap c, len := 0, ovf := false } }).bind
    (put (le4 mask))

/-- The destination's transaction on an encoded frame (R148). -/
def deliver (d : Dest) (bs : List Byte) (s : State) : State :=
  match d with
  | .wire => writeBytes bs s
  | .log => logWrite bs s

/-- `Send(dest)` (R148) for the operation `w`: an overflowed frame is abandoned, any other is encoded and
handed over whole, after which the serialiser is idle (R23, R120). -/
def sendFrame (w : Site) (d : Dest) (s : State) : Res State :=
  if s.wr.ovf then .ok (s.raise .overflow w)
  else
    (memRead .wbuf 0 s.wr.len s).map fun bs =>
      deliver d (encodeFrame s.params bs) { s with wr := { s.wr with tx := .idle } }

end Sys2Proof.Machine
end

