-- ==== Sys2Proof/Machine/Flags.lean ====
section
/-! DEFINITION. The flags of the block and the tests on mask words: `ack` (R14, R203), `ok` (R15), the
bit tests of the command mask, the submask, the LED sub-submask and the State mask (R80, R84, R85, R88),
the sequencer (R13), the flags byte of the recording-state reply (R77). (`wovf`, R16, is written by the
Field Writer in Ops.lean.) -/

namespace Sys2Proof.Machine

/-- The mask bit of an operation is set in `m` (R80, R200). -/
def State.selected (s : State) (op : CmdOp) : Bool := s.disp.m.getLsbD (s.params.cmdBitOf op)

/-- The submask bit of a sub-field is set in `sub` (R84). -/
def State.subSelected (s : State) (k : SubField) : Bool := s.disp.sub.getLsbD (s.params.subBitOf k)

/-- The sub-submask bit of an LED entry is set in `ledsub` (R85). -/
def State.ledSelected (s : State) (i : Nat) : Bool := s.disp.ledsub.getLsbD i

/-- A State mask bit is set in `eff` (R88). -/
def State.effSelected (s : State) (b : Nat) : Bool := s.tel.eff.getLsbD b

/-- `ack <- ack | (1 << CMD_BIT[op])` (R14, R203). -/
def State.ackOp (s : State) (op : CmdOp) : State :=
  { s with disp := { s.disp with ack := s.disp.ack ||| s.params.cmdMask op } }

/-- `ok <- b` (R15). -/
def State.setOk (s : State) (b : Bool) : State := { s with disp := { s.disp with ok := b } }

/-- `sub <- v`. -/
def State.setSub (s : State) (v : Half) : State := { s with disp := { s.disp with sub := v } }

/-- `ledsub <- v`. -/
def State.setLedsub (s : State) (v : Half) : State := { s with disp := { s.disp with ledsub := v } }

/-- The local `rec` of R242 and R245. -/
def State.setRecord (s : State) (r : List Byte) : State := { s with disp := { s.disp with record := r } }

/-- `seq <- n` (R13). -/
def State.setSeq (s : State) (n : Fin 25) : State := { s with disp := { s.disp with seq := n } }

/-- The flags byte of a `RECSTATE` frame: bit 0 open, bit 1 locked, bits 7 to 2 zero (R77, R246). -/
def recFlags (isOpen isLocked : Bool) : Byte :=
  (if isOpen then 1#8 else 0#8) ||| (if isLocked then 2#8 else 0#8)

/-- `ack & ~m = 0`, the law of R14. -/
def Disp.ackWithinMask (d : Disp) : Prop := d.ack &&& ~~~d.m = 0#32

end Sys2Proof.Machine
end

