-- ==== Sys2Proof/Machine/Operands.lean ====
section
/-! DEFINITION. The operand forms of the block: the typed fields of R90 and their decoding (R142), the
Field Reader's `ParseInto` (R141), and the payload tuple of every operation (R82). -/

namespace Sys2Proof.Machine

/-- The size in bytes of a field type (R90). -/
def fieldSize : FieldType → Nat
  | .u8 | .i8 => 1
  | .u16 | .i16 => 2
  | .u32 | .i32 | .f32 | .tag => 4
  | .f32x3 => 12
  | .bytes n => n

/-- `decode_T` on `size(T)` bytes (R142). -/
def decodeField : FieldType → List Byte → FieldVal
  | .u8, bs => .u8 (byte bs)
  | .i8, bs => .i8 (byte bs)
  | .u16, bs => .u16 (half bs)
  | .i16, bs => .i16 (half bs)
  | .u32, bs => .u32 (word bs)
  | .i32, bs => .i32 (word bs)
  | .f32, bs => .f32 (word bs)
  | .f32x3, bs => .f32x3 (word (bs.take 4)) (word ((bs.drop 4).take 4)) (word ((bs.drop 8).take 4))
  | .bytes _, bs => .bytes bs
  | .tag, bs => .tag (word bs)

/-- The encoding of a typed value (R90). -/
def encodeField : FieldVal → List Byte
  | .u8 v | .i8 v => [v]
  | .u16 v | .i16 v => le2 v
  | .u32 v | .i32 v | .f32 v | .tag v => le4 v
  | .f32x3 x y z => le4 x ++ le4 y ++ le4 z
  | .bytes bs => bs

/-- The total size of a tuple of field types (R141). -/
def tupleSize (ts : List FieldType) : Nat := (ts.map fieldSize).sum

/-- The values of a tuple, each from the bytes after those of the one before (R141). -/
def decodeTuple : List FieldType → List Byte → List FieldVal
  | [], _ => []
  | t :: ts, bs => decodeField t (bs.take (fieldSize t)) :: decodeTuple ts (bs.drop (fieldSize t))

/-- The reader takes `n` bytes at its cursor, all or none (R141). -/
def takeBytes (n : Nat) (s : State) : Res (State × Option (List Byte)) :=
  if s.rd.len - s.rd.pos < n then .ok (s, none)
  else
    (memRead .rbuf s.rd.pos n s).map fun bs =>
      ({ s with rd := { s.rd with pos := s.rd.pos + n } }, some bs)

/-- `ParseInto(T1, ..., Tk)` (R141): `none` is `fail`. -/
def parseInto (ts : List FieldType) (s : State) : Res (State × Option (List FieldVal)) :=
  (takeBytes (tupleSize ts) s).map fun r => (r.1, r.2.map (decodeTuple ts))

/-- The `u16` or `i16` in place `i` of a parsed tuple. -/
def u16At (vs : List FieldVal) (i : Nat) : Half :=
  match vs[i]? with
  | some (.u16 v) => v
  | some (.i16 v) => v
  | _ => 0#16

/-- The `u32` in place `i` of a parsed tuple. -/
def u32At (vs : List FieldVal) (i : Nat) : Word :=
  match vs[i]? with
  | some (.u32 v) => v
  | _ => 0#32

/-- The table of R82: the first tuple each operation parses. The two-part payloads of the partial
operations go on as R86 and R245 say. -/
def defaultPayload (p : Params) : CmdOp → List FieldType
  | .setEepromData => [.bytes p.cfgTotal]
  | .reinitEepromData | .reqEepromData => []
  | .reqEnableIteration => [.u8]
  | .motor _ => [.u16]
  | .setCommandOverride => [.u8]
  | .setStateMask => [.u32]
  | .setStateDelay | .setSdWriteDelay => [.u16]
  | .setLed => [.bytes p.ledCmdSize]
  | .setSerialRc => [.u8, .i16, .i16, .i16, .i16, .u8]
  | .setCardRecording => [.u8]
  | .setPartialEepromData | .reinitPartialEepromData | .reqPartialEepromData => [.u16]
  | .reqCardRecordingState | .reqResponse => []

/-- `OP_PAYLOAD[op]` (R4, R82): the parameter's own tuple, or that of R82. -/
def opPayload (p : Params) (op : CmdOp) : List FieldType :=
  (p.opPayload.lookup op).getD (defaultPayload p op)

/-- The 32-bit register value in an operation's tuple: one 32-bit field, its bits unchanged (R143). R82's
tuple is one; for any other kind of tuple the rules state no value, so it is free
(notes/assumptions/17.md). -/
def wordOperand (op : CmdOp) : List FieldVal → Word
  | [.u32 v] | [.i32 v] | [.f32 v] | [.tag v] => v
  | vs => Config.unstatedOperand op vs 32

/-- The 16-bit register value in an operation's tuple: one 16-bit field, its bits unchanged (R143); for
any other kind of tuple free (notes/assumptions/17.md). -/
def halfOperand (op : CmdOp) : List FieldVal → Half
  | [.u16 v] | [.i16 v] => v
  | vs => Config.unstatedOperand op vs 16

/-- The flags in an operation's tuple: the bits 7 to 0 of one integer field (R6, R218); for any other kind
of tuple free (notes/assumptions/17.md). -/
def flagsOperand (op : CmdOp) : List FieldVal → Byte
  | [.u8 v] | [.i8 v] => v
  | [.u16 v] | [.i16 v] => v.setWidth 8
  | [.u32 v] | [.i32 v] | [.tag v] => v.setWidth 8
  | vs => Config.unstatedOperand op vs 8

/-- The record in the tuple of `SET_EEPROM_DATA`: the tuple's bytes in order, when they are `CFG_TOTAL`
(R87); for a tuple of another size free (notes/assumptions/17.md). -/
def recordOperand (p : Params) (vs : List FieldVal) : List Byte :=
  if (vs.flatMap encodeField).length = p.cfgTotal then vs.flatMap encodeField
  else leN p.cfgTotal (Config.unstatedOperand .setEepromData vs (8 * p.cfgTotal)).toNat

/-- `CMD{ops} + raw` (R97): the payload of a Command frame whose mask selects the given operations, with
the given payload bytes of each, in slot order. -/
def commandPayload (p : Params) (ops : List (CmdOp × List Byte)) (raw : List Byte) : List Byte :=
  le4 p.typeCommand ++ le4 (ops.foldl (fun m o => m ||| p.cmdMask o.1) 0) ++
    (CmdOp.all.flatMap fun op => (ops.filter fun o => o.1 = op).flatMap Prod.snd) ++ raw

/-- `STATE_ALL` (R98). -/
def stateAll : Word := 0xFFFFFFFF

/-- `STATE_NONE` (R98). -/
def stateNone : Word := 0

/-- `CFG_ALL` (R98). -/
def cfgAll : Half := 0x01FF

/-- `LED_ALL` (R98). -/
def ledAll : Half := 0xFFFF

end Sys2Proof.Machine
end

