-- ==== Sys2Proof/Machine/Record.lean ====
section
/-! DEFINITION. The Configuration Record multiplexer (43_config_record.md): `ReadFull`, `ParsePartial`,
`ResetPartial`, `WriteFull`, `WritePartial`, `ConfigValid`, `Commit`, and the SUB rows they visit. -/

namespace Sys2Proof.Machine

/-! ### The SUB rows: what each procedure does at one sub-field -/

/-- `ParseInto(bytes[n])` into WCFG at an offset; a failure clears `ok` (R176). -/
def parseToWcfg (off n : Nat) (s : State) : Res State :=
  (takeBytes n s).bind fun r =>
    match r.2 with
    | none => .ok (r.1.setOk false)
    | some bs => memWrite .wcfg off bs r.1

/-- LED entry `i` of `ParsePartial` (R176). -/
def parseLedEntry (i : Nat) (s : State) : Res State :=
  if s.disp.ok && s.ledSelected i then parseToWcfg (s.params.ledOff i) s.params.ledEntrySize s
  else .ok s

/-- LED entry `i` of `ResetPartial` (R177). -/
def resetLedEntry (i : Nat) (s : State) : Res State :=
  if s.ledSelected i then memWrite .wcfg (s.params.ledOff i) (s.params.led s.params.cfgDefault i) s
  else .ok s

/-- LED entry `i` of `WritePartial` (R175). -/
def writeLedEntry (i : Nat) (s : State) : Res State :=
  if s.ledSelected i then put (s.params.led s.disp.record i) s else .ok s

/-- The 16 LED entries in ascending order (R85). -/
def allLeds (f : Nat → State → Res State) (s : State) : Res State :=
  runAll ((List.range 16).map f) s

/-- The `ledsub` word read from the payload, then the entries; a failure clears `ok` (R176, R177). -/
def readLedsub (entries : State → Res State) (s : State) : Res State :=
  (parseInto [.u16] s).bind fun r =>
    match r.2 with
    | none => .ok (r.1.setOk false)
    | some vs => entries (r.1.setLedsub (u16At vs 0))

/-- A sub-field in `ParsePartial` (R176): sub-fields 0 to 6 and led-states only while `ok`, device-name
also after a failure when `NAME_PARSE_UNCONDITIONAL`. -/
def parseField (k : SubField) (s : State) : Res State :=
  if s.subSelected k && (s.disp.ok || (decide (k = .deviceName) && s.params.nameParseUnconditional)) then
    (if k = .ledStates then readLedsub (allLeds parseLedEntry) s
     else parseToWcfg (s.params.cfgOff k) (s.params.cfgSizeOf k) s)
  else .ok s

/-- A sub-field in `ResetPartial` (R177). -/
def resetField (k : SubField) (s : State) : Res State :=
  if s.subSelected k then
    (if k = .ledStates then readLedsub (allLeds resetLedEntry) s
     else memWrite .wcfg (s.params.cfgOff k) (s.params.field s.params.cfgDefault k) s)
  else .ok s

/-- A sub-field in `WritePartial` (R175). -/
def writeField (k : SubField) (s : State) : Res State :=
  if s.subSelected k then
    (if k = .ledStates then (put (le2 s.disp.ledsub) s).bind (allLeds writeLedEntry)
     else put (s.params.field s.disp.record k) s)
  else .ok s

/-- A SUB row: what the given procedure does at sub-field `k`. -/
def subRow (k : SubField) (w : SubWalk) (s : State) : Res State :=
  match w with
  | .parse => parseField k s
  | .reset => resetField k s
  | .write => writeField k s

/-- The nine sub-fields in the fixed order (R84). -/
def walkFields (w : SubWalk) (s : State) : Res State :=
  runAll (SubField.all.map fun k => subRow k w) s

/-! ### The procedures -/

/-- `ReadFull()` (R172): the whole record as one tuple; true is `ok`. -/
def readFull (s : State) : Res (State × Bool) :=
  (parseInto [.bytes s.params.cfgTotal] s).bind fun r =>
    match r.2 with
    | none => .ok (r.1, false)
    | some vs => (memWrite .wcfg 0 (recordOperand s.params vs) r.1).map fun t => (t, true)

/-- `WriteFull(rec)` (R173), on the record in `rec`. -/
def writeFull (s : State) : Res State := put s.disp.record s

/-- `ParsePartial(sub)` (R176); the result is `ok`. DESIGN CHOICE (notes/assumptions/37.md): the operand is
copied into the register `sub`, which the rows test; its callers pass what the register holds. -/
def parsePartial (sub : Half) (s : State) : Res State :=
  walkFields .parse ((s.setSub sub).setOk true)

/-- `ResetPartial(sub)` (R177); the result is `ok`. DESIGN CHOICE (notes/assumptions/37.md): the operand is
copied into the register `sub`, as for `parsePartial`. -/
def resetPartial (sub : Half) (s : State) : Res State :=
  walkFields .reset ((s.setSub sub).setOk true)

/-- `WritePartial(rec, sub, ledsub)` (R175), on the record in `rec`. DESIGN CHOICE (notes/assumptions/37.md):
the operands are copied into the registers `sub` and `ledsub`, as for `parsePartial`. -/
def writePartial (sub ledsub : Half) (s : State) : Res State :=
  (put (le2 sub) ((s.setSub sub).setLedsub ledsub)).bind (walkFields .write)

/-- The record in WCFG (R43). -/
def workingRecord (s : State) : Res (List Byte) := memRead .wcfg 0 s.params.cfgTotal s

/-- `verify` of the working copy's device-name (R162, R178). -/
def verifyWorking (s : State) : Res Bool :=
  (workingRecord s).map fun rec => verifyName (s.params.field rec .deviceName)

/-- `ConfigValid(wcfg)` (R178). -/
def configValid (s : State) : Res Bool := (workingRecord s).map s.params.configValid

/-- `LiveSystem.applyConfig`, then `Storage.write`; a failed write raises `E_COLLAB` for the operation `w`
(R179, R314). -/
def commitRecord (w : Site) (rec : List Byte) (s : State) : State × Bool :=
  match storageWrite rec (applyConfig rec s) with
  | (t, true) => (t, true)
  | (t, false) => (t.raise .collab w, false)

/-- `Commit(wcfg)` for the operation `w` (R179); true is `ok`. -/
def commit (w : Site) (s : State) : Res (State × Bool) :=
  (workingRecord s).map fun rec => commitRecord w rec s

end Sys2Proof.Machine
end

