-- ==== Sys2Proof/Machine/Dispatcher.lean ====
section
/-! DEFINITION. The Protocol Dispatcher (44_dispatcher.md, 45_dispatcher_config_ops.md): the 24 slots,
`processFrame`, and the instructions of the formats CMD and HDR with the host step `PROCESS`. -/

namespace Sys2Proof.Machine

/-! ### Slots (R13, R200, R202 to R205) -/

/-- One slot of the sequencer: `seq` takes its number, the mask bit is tested, and when it is set the
operation is attempted; when it is clear nothing happens (R13, R200). -/
def slot (op : CmdOp) (body : State → Res State) (s : State) : Res State :=
  if (s.setSeq op.seq).selected op then body (s.setSeq op.seq) else .ok (s.setSeq op.seq)

/-- An operation that begins with the parse of its tuple `OP_PAYLOAD[op]`: on failure it raises `E_PARSE`,
and nothing else happens (R82, R205). An operation without a payload has the empty tuple, whose parse
takes nothing and cannot fail (R141). -/
def withTuple (op : CmdOp) (body : List FieldVal → State → Res State) (s : State) : Res State :=
  (parseInto (opPayload s.params op) s).bind fun r =>
    match r.2 with
    | none => .ok (r.1.raise .parse (.op op))
    | some vs => body vs r.1

/-- What a simple operation does once its tuple has parsed: the action, then the ack bit (R205). -/
def simpleOp (op : CmdOp) (act : State → State) (s : State) : Res State := .ok ((act s).ackOp op)

/-- Commit the working copy and set the ack bit when that succeeded (R179, R203). -/
def commitAndAck (op : CmdOp) (s : State) : Res State :=
  (commit (.op op) s).map fun r => if r.2 then r.1.ackOp op else r.1

/-- Validate the working copy, then commit it; an invalid record raises `E_VALID` (R240, R243, R244). -/
def validateAndCommit (op : CmdOp) (s : State) : Res State :=
  (configValid s).bind fun v => if v then commitAndAck op s else .ok (s.raise .valid (.op op))

/-- The end of a partial operation: a failed parse raises `E_PARSE`, else validate and commit (R243,
R244). -/
def finishPartial (op : CmdOp) (s : State) : Res State :=
  if s.disp.ok then validateAndCommit op s else .ok (s.raise .parse (.op op))

/-- Load WCFG with the persisted record (R243, R244). -/
def loadPersisted (s : State) : Res State :=
  memWrite .wcfg 0 (storageRead s).2 (storageRead s).1

/-! ### The operations, on the values of their tuples -/

/-- `SET_EEPROM_DATA` (R240): parsing R82's tuple and writing its record into WCFG is `ReadFull` (R172). -/
def opSetEepromData (vs : List FieldVal) (s : State) : Res State :=
  (memWrite .wcfg 0 (recordOperand s.params vs) s).bind (validateAndCommit .setEepromData)

/-- `REINIT_EEPROM_DATA` (R241). -/
def opReinitEepromData (s : State) : Res State :=
  (memWrite .wcfg 0 s.params.cfgDefault s).bind (commitAndAck .reinitEepromData)

/-- `REQ_EEPROM_DATA` (R242). -/
def opReqEepromData (s : State) : Res State :=
  (beginFrame .large s.params.typeCommand (s.params.cmdMask .setEepromData) s).bind fun t =>
    (writeFull ((readConfig t).1.setRecord (readConfig t).2)).bind fun u =>
      (sendFrame (.op .reqEepromData) .wire u).map fun v => v.ackOp .reqEepromData

/-- `REQ_ENABLE_ITERATION` (R210). -/
def opReqEnableIteration (vs : List FieldVal) : State → Res State :=
  simpleOp .reqEnableIteration fun t => t.record (.motorEnableIteration vs)

/-- `MOTOR_OVERRIDE_SPEED_i` (R211). The "any motor" gate adds nothing to the slot's own test (R83;
notes/assumptions/27.md). -/
def opMotor (i : Fin 8) (vs : List FieldVal) : State → Res State :=
  simpleOp (.motor i) (setMotorOut i (halfOperand (.motor i) vs))

/-- `SET_COMMAND_OVERRIDE` (R212). -/
def opSetCommandOverride (vs : List FieldVal) : State → Res State :=
  simpleOp .setCommandOverride fun t => t.record (.setCommandOverride vs)

/-- `SET_STATE_MASK` (R213). -/
def opSetStateMask (vs : List FieldVal) : State → Res State :=
  simpleOp .setStateMask fun t =>
    { t with ctl := { t.ctl with telemetryMask := wordOperand .setStateMask vs } }

/-- `SET_STATE_DELAY` (R214). -/
def opSetStateDelay (vs : List FieldVal) : State → Res State :=
  simpleOp .setStateDelay fun t =>
    { t with ctl := { t.ctl with sendInterval := halfOperand .setStateDelay vs } }

/-- `SET_SD_WRITE_DELAY` (R215). -/
def opSetSdWriteDelay (vs : List FieldVal) : State → Res State :=
  simpleOp .setSdWriteDelay fun t =>
    { t with ctl := { t.ctl with logInterval := halfOperand .setSdWriteDelay vs } }

/-- `SET_LED` (R216). -/
def opSetLed (vs : List FieldVal) : State → Res State :=
  simpleOp .setLed fun t => t.record (.setLed vs)

/-- `SET_SERIAL_RC` (R217). -/
def opSetSerialRc (vs : List FieldVal) : State → Res State :=
  simpleOp .setSerialRc fun t => t.record (.setSerialRc vs)

/-- The log transactions of `SET_CARD_RECORDING`: unlock, open or close by bit 0, lock by bit 1 (R218). -/
def recordingRequest (flags : Byte) (s : State) : State :=
  if flags.getLsbD 0 then logSetLock (flags.getLsbD 1) (logOpen (logSetLock false s))
  else logSetLock (flags.getLsbD 1) (logClose (logSetLock false s))

/-- `SET_CARD_RECORDING` (R218). -/
def opSetCardRecording (vs : List FieldVal) : State → Res State :=
  simpleOp .setCardRecording (recordingRequest (flagsOperand .setCardRecording vs))

/-- `SET_PARTIAL_EEPROM_DATA` (R243), from its submask on. -/
def opSetPartialEepromData (sub : Half) (s : State) : Res State :=
  (loadPersisted (s.setSub sub)).bind fun t =>
    (parsePartial sub t).bind (finishPartial .setPartialEepromData)

/-- `REINIT_PARTIAL_EEPROM_DATA` (R244), from its submask on. -/
def opReinitPartialEepromData (sub : Half) (s : State) : Res State :=
  (loadPersisted (s.setSub sub)).bind fun t =>
    (resetPartial sub t).bind (finishPartial .reinitPartialEepromData)

/-- The request words of `REQ_PARTIAL_EEPROM_DATA` after the submask: `ledsub` is 0 unless led-states is
selected, and then it is parsed; a failure clears `ok` (R245). -/
def requestLedsub (s : State) : Res State :=
  if s.subSelected .ledStates then
    readLedsub .ok ((s.setLedsub 0#16).setOk true)
  else .ok ((s.setLedsub 0#16).setOk true)

/-- The reply of `REQ_PARTIAL_EEPROM_DATA` (R245). -/
def replyPartial (s : State) : Res State :=
  (beginFrame .large s.params.typeCommand (s.params.cmdMask .setPartialEepromData) s).bind fun t =>
    (writePartial t.disp.sub t.disp.ledsub ((readConfig t).1.setRecord (readConfig t).2)).bind fun u =>
      (sendFrame (.op .reqPartialEepromData) .wire u).map fun v => v.ackOp .reqPartialEepromData

/-- `REQ_PARTIAL_EEPROM_DATA` (R245), from its submask on. -/
def opReqPartialEepromData (sub : Half) (s : State) : Res State :=
  (requestLedsub (s.setSub sub)).bind fun t =>
    if t.disp.ok then replyPartial t else .ok (t.raise .parse (.op .reqPartialEepromData))

/-- The two log queries of `REQ_CARD_RECORDING_STATE`, and the flags byte they give (R246). -/
def recordingState (s : State) : State × Byte :=
  ((logIsLocked (logIsOpen s).1).1, recFlags s.env.logOpen s.env.logLocked)

/-- `REQ_CARD_RECORDING_STATE` (R246). -/
def opReqCardRecordingState (s : State) : Res State :=
  (beginFrame .small s.params.typeCommand
      (s.params.cmdMask .setSdWriteDelay ||| s.params.cmdMask .setCardRecording) s).bind fun t =>
    (put (le2 t.ctl.logInterval) t).bind fun u =>
      (put [(recordingState u).2] (recordingState u).1).bind fun v =>
        (sendFrame (.op .reqCardRecordingState) .wire v).map fun w => w.ackOp .reqCardRecordingState

/-- `REQ_RESPONSE` (R247): it sets no ack bit. -/
def opReqResponse (s : State) : Res State :=
  (beginFrame .small s.params.typeResponse s.disp.m s).bind fun t =>
    (put (le4 t.disp.ack) t).bind (sendFrame (.op .reqResponse) .wire)

/-- What an operation does with the values of its parsed tuple (R200's table). -/
def act : CmdOp → List FieldVal → State → Res State
  | .setEepromData, vs => opSetEepromData vs
  | .reinitEepromData, _ => opReinitEepromData
  | .reqEepromData, _ => opReqEepromData
  | .reqEnableIteration, vs => opReqEnableIteration vs
  | .motor i, vs => opMotor i vs
  | .setCommandOverride, vs => opSetCommandOverride vs
  | .setStateMask, vs => opSetStateMask vs
  | .setStateDelay, vs => opSetStateDelay vs
  | .setSdWriteDelay, vs => opSetSdWriteDelay vs
  | .setLed, vs => opSetLed vs
  | .setSerialRc, vs => opSetSerialRc vs
  | .setCardRecording, vs => opSetCardRecording vs
  | .setPartialEepromData, vs => opSetPartialEepromData (halfOperand .setPartialEepromData vs)
  | .reinitPartialEepromData, vs => opReinitPartialEepromData (halfOperand .reinitPartialEepromData vs)
  | .reqPartialEepromData, vs => opReqPartialEepromData (halfOperand .reqPartialEepromData vs)
  | .reqCardRecordingState, _ => opReqCardRecordingState
  | .reqResponse, _ => opReqResponse

/-- The attempt of an operation: its tuple, then what it does with it. -/
def attempt (op : CmdOp) (s : State) : Res State := withTuple op (act op) s

/-- The slot of an operation (R13). -/
def slotOf (op : CmdOp) : State → Res State := slot op (attempt op)

/-! ### The frame-level algorithm (R200) -/

/-- Steps 2 to 4 of `processFrame`: clear `ack`, visit the slots in ascending order, finish (R200). -/
def acceptCommand (s : State) : Res State :=
  (runAll (CmdOp.all.map slotOf) { s with disp := { s.disp with ack := 0#32 } }).map fun t => t.setSeq 24

/-- A frame of any other type is ignored: "abort silently (no response)" (R79, R200 step 1). -/
def ignoreFrame (s : State) : State := s.setSeq 24

/-- What the header's type decides (R79, R200 step 1). -/
def dispatchType (s : State) : Res State :=
  if s.disp.type = s.params.typeCommand then acceptCommand s else .ok (ignoreFrame s)

/-- The payload into RBUF, `rlen` and `rpos` (R41, R140, R200). -/
def loadFrame (payload : List Byte) (s : State) : Res State :=
  (memWrite .rbuf 0 payload s).map fun t =>
    { t with rd := { t.rd with len := payload.length, pos := 0 } }

/-- `processFrame(payload)` (R200). -/
def processFrame (payload : List Byte) (s : State) : Res State :=
  (loadFrame payload s).bind fun t =>
    (parseInto [.u32, .u32] t).bind fun r =>
      match r.2 with
      | none => .ok ((r.1.raise .parse .header).setSeq 24)
      | some vs =>
        dispatchType { r.1 with disp := { r.1.disp with type := u32At vs 0, m := u32At vs 1 } }

/-- `PROCESS`: the oldest queued payload (R10, R201). With an empty queue `readFrame` is `None` (R334)
and nothing happens (notes/assumptions/12.md). -/
def processHead (s : State) : Res State :=
  match s.rx.queue with
  | [] => .ok s
  | payload :: q => processFrame payload { s with rx := { s.rx with queue := q } }

/-! ### The CMD rows -/

/-- `SET_EEPROM_DATA` (R240). -/
def execSetEepromData (s : State) : Host.Outcome State Fault Refusal :=
  outcome (slotOf .setEepromData s)

/-- `REINIT_EEPROM_DATA` (R241). -/
def execReinitEepromData (s : State) : Host.Outcome State Fault Refusal :=
  outcome (slotOf .reinitEepromData s)

/-- `REQ_EEPROM_DATA` (R242). -/
def execReqEepromData (s : State) : Host.Outcome State Fault Refusal :=
  outcome (slotOf .reqEepromData s)

/-- `REQ_ENABLE_ITERATION` (R210). -/
def execReqEnableIteration (s : State) : Host.Outcome State Fault Refusal :=
  outcome (slotOf .reqEnableIteration s)

/-- `MOTOR_OVERRIDE_SPEED_0` (R211). -/
def execMotorOverrideSpeed0 (s : State) : Host.Outcome State Fault Refusal :=
  outcome (slotOf (.motor 0) s)

/-- `MOTOR_OVERRIDE_SPEED_1` (R211). -/
def execMotorOverrideSpeed1 (s : State) : Host.Outcome State Fault Refusal :=
  outcome (slotOf (.motor 1) s)

/-- `MOTOR_OVERRIDE_SPEED_2` (R211). -/
def execMotorOverrideSpeed2 (s : State) : Host.Outcome State Fault Refusal :=
  outcome (slotOf (.motor 2) s)

/-- `MOTOR_OVERRIDE_SPEED_3` (R211). -/
def execMotorOverrideSpeed3 (s : State) : Host.Outcome State Fault Refusal :=
  outcome (slotOf (.motor 3) s)

/-- `MOTOR_OVERRIDE_SPEED_4` (R211). -/
def execMotorOverrideSpeed4 (s : State) : Host.Outcome State Fault Refusal :=
  outcome (slotOf (.motor 4) s)

/-- `MOTOR_OVERRIDE_SPEED_5` (R211). -/
def execMotorOverrideSpeed5 (s : State) : Host.Outcome State Fault Refusal :=
  outcome (slotOf (.motor 5) s)

/-- `MOTOR_OVERRIDE_SPEED_6` (R211). -/
def execMotorOverrideSpeed6 (s : State) : Host.Outcome State Fault Refusal :=
  outcome (slotOf (.motor 6) s)

/-- `MOTOR_OVERRIDE_SPEED_7` (R211). -/
def execMotorOverrideSpeed7 (s : State) : Host.Outcome State Fault Refusal :=
  outcome (slotOf (.motor 7) s)

/-- `SET_COMMAND_OVERRIDE` (R212). -/
def execSetCommandOverride (s : State) : Host.Outcome State Fault Refusal :=
  outcome (slotOf .setCommandOverride s)

/-- `SET_STATE_MASK` (R213). -/
def execSetStateMask (s : State) : Host.Outcome State Fault Refusal :=
  outcome (slotOf .setStateMask s)

/-- `SET_STATE_DELAY` (R214). -/
def execSetStateDelay (s : State) : Host.Outcome State Fault Refusal :=
  outcome (slotOf .setStateDelay s)

/-- `SET_SD_WRITE_DELAY` (R215). -/
def execSetSdWriteDelay (s : State) : Host.Outcome State Fault Refusal :=
  outcome (slotOf .setSdWriteDelay s)

/-- `SET_LED` (R216). -/
def execSetLed (s : State) : Host.Outcome State Fault Refusal :=
  outcome (slotOf .setLed s)

/-- `SET_SERIAL_RC` (R217). -/
def execSetSerialRc (s : State) : Host.Outcome State Fault Refusal :=
  outcome (slotOf .setSerialRc s)

/-- `SET_CARD_RECORDING` (R218). -/
def execSetCardRecording (s : State) : Host.Outcome State Fault Refusal :=
  outcome (slotOf .setCardRecording s)

/-- `SET_PARTIAL_EEPROM_DATA` (R243). -/
def execSetPartialEepromData (s : State) : Host.Outcome State Fault Refusal :=
  outcome (slotOf .setPartialEepromData s)

/-- `REINIT_PARTIAL_EEPROM_DATA` (R244). -/
def execReinitPartialEepromData (s : State) : Host.Outcome State Fault Refusal :=
  outcome (slotOf .reinitPartialEepromData s)

/-- `REQ_PARTIAL_EEPROM_DATA` (R245). -/
def execReqPartialEepromData (s : State) : Host.Outcome State Fault Refusal :=
  outcome (slotOf .reqPartialEepromData s)

/-- `REQ_CARD_RECORDING_STATE` (R246). -/
def execReqCardRecordingState (s : State) : Host.Outcome State Fault Refusal :=
  outcome (slotOf .reqCardRecordingState s)

/-- `REQ_RESPONSE` (R247). -/
def execReqResponse (s : State) : Host.Outcome State Fault Refusal :=
  outcome (slotOf .reqResponse s)

/-! ### The HDR rows and `PROCESS` -/

/-- A header row applies when the type word is the tag, matched whole (R78, R99). -/
def whenType (tag : Word) (body : State → Res State) (s : State) : Res State :=
  if s.disp.type = tag then body s else .ok s

/-- `TYPE_COMMAND`: the frame is dispatched (R72, R200 steps 2 to 4). -/
def execTypeCommand (s : State) : Host.Outcome State Fault Refusal :=
  outcome (whenType s.params.typeCommand acceptCommand s)

/-- `TYPE_STATE`: the frame is ignored (R73, R79). -/
def execTypeState (s : State) : Host.Outcome State Fault Refusal :=
  outcome (whenType s.params.typeState (fun t => .ok (ignoreFrame t)) s)

/-- `TYPE_RESPONSE`: the frame is ignored (R74, R79). -/
def execTypeResponse (s : State) : Host.Outcome State Fault Refusal :=
  outcome (whenType s.params.typeResponse (fun t => .ok (ignoreFrame t)) s)

/-- `PROCESS` (R200). -/
def execProcess (s : State) : Host.Outcome State Fault Refusal := outcome (processHead s)

end Sys2Proof.Machine
end

