-- ==== Sys2Proof/Machine/FrameCodec.lean ====
section
/-! DEFINITION. The Frame Codec unit on the machine: the receive framer in its abstract form (R117) and
its streaming realisation (R119), the transmit serialiser (R120), and the instructions `ENCODE`,
`DECODE`, `RX_BYTE`. -/

namespace Sys2Proof.Machine

/-- `push(d)` of the streaming framer (R119). -/
def Framer.push (f : Framer) (capRx : Nat) (d : Byte) : Framer :=
  if f.n = capRx then { f with bad := true } else { f with fill := f.fill ++ [d] }

/-- The streaming framer's registers after a byte (R119); the queue is not its concern here. -/
def Framer.stream (f : Framer) (p : Params) (b : Byte) : Framer :=
  if b = 0#8 then { f with fill := [], esc := false, bad := false }
  else if f.bad then f
  else if f.esc then
    (if p.illegalCode (b ^^^ p.escXor) then { f with esc := false, bad := true }
     else { f with esc := false }.push p.capRx (b ^^^ p.escXor))
  else if b = p.escByte then { f with esc := true }
  else f.push p.capRx b

/-- The payload that the streaming framer queues at a terminator, if it queues one (R119). -/
def Framer.streamPayload (f : Framer) : Option (List Byte) :=
  if f.bad || f.esc then none else some f.fill

/-- The streaming registers run beside the abstract one under ESC; the spec gives no streaming form for
COBS (R127; notes/assumptions/20.md). -/
def Framer.follow (f : Framer) (p : Params) (b : Byte) : Framer :=
  match p.codecAlg with
  | .esc => f.stream p b
  | .cobs => f

/-- `RX_BYTE(b)` (R117): extend the frame, or close it at 0x00 and queue its payload; a frame that does
not decode raises `E_FRAME` and is dropped. -/
def rxByte (b : Byte) (s : State) : State :=
  if b ≠ 0#8 then
    { s with rx := { s.rx.follow s.params b with acc := s.rx.acc ++ [b] } }
  else
    match decodeFrame s.params s.rx.acc s.params.capRx with
    | none =>
      { s with rx := { s.rx.follow s.params b with acc := [] } }.raise .frame (.frame s.rx.acc)
    | some r =>
      { s with rx := { s.rx.follow s.params b with acc := [], queue := s.rx.queue ++ [r] } }

/-- The transmit serialiser for ESC, one byte of WBUF at a time from index `i` (R120). -/
def serialiseEsc (p : Params) (m : Memory) : Nat → Nat → List Byte
  | _, 0 => [0#8]
  | i, n + 1 =>
    if m.read i = 0#8 ∨ m.read i = p.escByte then
      p.escByte :: (m.read i ^^^ p.escXor) :: serialiseEsc p m (i + 1) n
    else m.read i :: serialiseEsc p m (i + 1) n

/-- `DECODE(f, cap)` for any byte sequence: on one without `0x00`, R114 and R125; on any other the result,
a payload within `cap` or `fail` (R110 L4, R114), is free (DESIGN CHOICE, notes/assumptions/35.md). -/
def decodeAny (p : Params) (f : List Byte) (cap : Nat) : Option (List Byte) :=
  if 0#8 ∈ f then (Config.unstatedDecode p f cap).filter fun x => decide (x.length ≤ cap)
  else decodeFrame p f cap

/-- A result of `bytes`, or `fail`. -/
def bytesResult : Option (List Byte) → OpResult
  | some bs => .bytes bs
  | none => .fail

/-- `ENCODE` (R112, R124). -/
def execEncode (p : List Byte) (s : State) : Host.Outcome State Fault Refusal :=
  .next (s.setResult (.bytes (encodeFrame s.params p)))

/-- `DECODE` (R114, R125). -/
def execDecode (f : List Byte) (cap : Nat) (s : State) : Host.Outcome State Fault Refusal :=
  .next (s.setResult (bytesResult (decodeAny s.params f cap)))

/-- `RX_BYTE` (R117). -/
def execRxByte (b : Byte) (s : State) : Host.Outcome State Fault Refusal := .next (rxByte b s)

end Sys2Proof.Machine
end

