-- ==== Sys2Proof/Machine/ReaderWriter.lean ====
section
/-! DEFINITION. The instructions of the Field Reader, the Field Writer and the Name Validator:
`ParseInto`, `Append`, `BeginFrame`, `Send`, `verify`, `fromString` (41_field_rw.md,
42_name_validator.md). `verify` is in Machine/RecordOps.lean, since its operand is in WCFG. -/

namespace Sys2Proof.Machine

/-- A result of a parsed tuple, or `fail`. -/
def tupleResult : Option (List FieldVal) → OpResult
  | some vs => .tuple vs
  | none => .fail

/-- A result of `ok` or `fail`. -/
def okResult (b : Bool) : OpResult := if b then .ok else .fail

/-- `ParseInto` (R141). -/
def execParseInto (ts : List FieldType) (s : State) : Host.Outcome State Fault Refusal :=
  outcome ((parseInto ts s).map fun r => r.1.setResult (tupleResult r.2))

/-- `Append` (R146). -/
def execAppend (bs : List Byte) (s : State) : Host.Outcome State Fault Refusal :=
  outcome ((append bs s).map fun r => r.1.setResult (okResult r.2))

/-- `BeginFrame` (R147). -/
def execBeginFrame (c : FrameClass) (type mask : Word) (s : State) :
    Host.Outcome State Fault Refusal :=
  outcome (beginFrame c type mask s)

/-- `Send` (R148). -/
def execSend (d : Dest) (s : State) : Host.Outcome State Fault Refusal := outcome (sendFrame .send d s)

/-- `fromString` (R164). -/
def execFromString (bs : List Byte) (s : State) : Host.Outcome State Fault Refusal :=
  .next (s.setResult (.bytes (nameFromString s.params.nameCap bs)))

end Sys2Proof.Machine
end

