-- ==== Sys2Proof/Machine/RecordOps.lean ====
section
/-! DEFINITION. The instructions of the Configuration Record multiplexer: the nine SUB rows and
`verify`, `ReadFull`, `WriteFull`, `WritePartial`, `ParsePartial`, `ResetPartial`, `ConfigValid`,
`Commit` (43_config_record.md). -/

namespace Sys2Proof.Machine

/-- `VERSION` (R84). -/
def execVersion (w : SubWalk) (s : State) : Host.Outcome State Fault Refusal :=
  outcome (subRow .version w s)

/-- `PCB` (R84). -/
def execPcb (w : SubWalk) (s : State) : Host.Outcome State Fault Refusal :=
  outcome (subRow .pcb w s)

/-- `MIX_TABLE` (R84). -/
def execMixTable (w : SubWalk) (s : State) : Host.Outcome State Fault Refusal :=
  outcome (subRow .mixTable w s)

/-- `MAG_BIAS` (R84). -/
def execMagBias (w : SubWalk) (s : State) : Host.Outcome State Fault Refusal :=
  outcome (subRow .magBias w s)

/-- `CHANNEL` (R84). -/
def execChannel (w : SubWalk) (s : State) : Host.Outcome State Fault Refusal :=
  outcome (subRow .channel w s)

/-- `PID_PARAMETERS` (R84). -/
def execPidParameters (w : SubWalk) (s : State) : Host.Outcome State Fault Refusal :=
  outcome (subRow .pidParameters w s)

/-- `STATE_PARAMETERS` (R84). -/
def execStateParameters (w : SubWalk) (s : State) : Host.Outcome State Fault Refusal :=
  outcome (subRow .stateParameters w s)

/-- `LED_STATES` (R84, R85). -/
def execLedStates (w : SubWalk) (s : State) : Host.Outcome State Fault Refusal :=
  outcome (subRow .ledStates w s)

/-- `DEVICE_NAME` (R84). -/
def execDeviceName (w : SubWalk) (s : State) : Host.Outcome State Fault Refusal :=
  outcome (subRow .deviceName w s)

/-- `verify` on the working copy's device-name (R162; notes/assumptions/24.md). -/
def execVerify (s : State) : Host.Outcome State Fault Refusal :=
  outcome ((verifyWorking s).map fun b => s.setResult (.flag b))

/-- `ReadFull` (R172). -/
def execReadFull (s : State) : Host.Outcome State Fault Refusal :=
  outcome ((readFull s).map fun r => r.1.setResult (okResult r.2))

/-- `WriteFull` (R173). -/
def execWriteFull (s : State) : Host.Outcome State Fault Refusal := outcome (writeFull s)

/-- `WritePartial` (R175; notes/assumptions/37.md). -/
def execWritePartial (sub ledsub : Half) (s : State) : Host.Outcome State Fault Refusal :=
  outcome (writePartial sub ledsub s)

/-- `ParsePartial` (R176; notes/assumptions/37.md). -/
def execParsePartial (sub : Half) (s : State) : Host.Outcome State Fault Refusal :=
  outcome ((parsePartial sub s).map fun t => t.setResult (.flag t.disp.ok))

/-- `ResetPartial` (R177; notes/assumptions/37.md). -/
def execResetPartial (sub : Half) (s : State) : Host.Outcome State Fault Refusal :=
  outcome ((resetPartial sub s).map fun t => t.setResult (.flag t.disp.ok))

/-- `ConfigValid` on the working copy (R178; notes/assumptions/24.md). -/
def execConfigValid (s : State) : Host.Outcome State Fault Refusal :=
  outcome ((configValid s).map fun b => s.setResult (.flag b))

/-- `Commit` on the working copy (R179; notes/assumptions/24.md). -/
def execCommit (s : State) : Host.Outcome State Fault Refusal :=
  outcome ((commit .commit s).map fun r => r.1.setResult (okResult r.2))

end Sys2Proof.Machine
end

