-- ==== Sys2Proof/Machine/ResetStep.lean ====
section
/-! DEFINITION. The `RESET` step (R350). -/

namespace Sys2Proof.Machine

/-- `RESET`: the control registers, the framer and its queue, and the serialiser take their reset
values; no transaction is made and nothing else is written (R30, R350). -/
def resetBlock (s : State) : State :=
  { s with ctl := Control.reset s.params, rx := Framer.reset, wr := { s.wr with tx := .idle } }

/-- `RESET` (R350). -/
def execReset (s : State) : Host.Outcome State Fault Refusal := .next (resetBlock s)

end Sys2Proof.Machine
end

