-- ==== Sys2Proof/Machine/Telemetry.lean ====
section
/-! DEFINITION. The Telemetry Encoder (46_telemetry.md): the 27 field rows (R270 to R296), `EMIT` (R261)
and `StateLen` (R263). -/

namespace Sys2Proof.Machine

/-- The bytes of an `f32x3` value, x first (R90, R275). -/
def Triple.bytes (t : Triple) : List Byte := le4 t.x ++ le4 t.y ++ le4 t.z

/-- The bytes of a PID tuple (R284). -/
def PidTuple.bytes (t : PidTuple) : List Byte :=
  le4 t.lastTime ++ le4 t.input ++ le4 t.setpoint ++ le4 t.pTerm ++ le4 t.iTerm ++ le4 t.dTerm

/-- The bytes of the command axes (R282). -/
def Axes.bytes (a : Axes) : List Byte := le2 a.throttle ++ le2 a.pitch ++ le2 a.roll ++ le2 a.yaw

/-- The bytes of the force/torque outputs (R283). -/
def ForceTorque.bytes (f : ForceTorque) : List Byte := le4 f.fz ++ le4 f.tx ++ le4 f.ty ++ le4 f.tz

/-- The bytes of 16-bit values in ascending order (R280, R292). -/
def halvesBytes (hs : List Half) : List Byte := hs.flatMap le2

/-- The bytes a field row appends, from `ts` and the snapshot of the `EMIT` in progress (R270 to R296). -/
def Telem.fieldBytes (t : Telem) : TelField → List Byte
  | .micros => le4 t.ts
  | .status => le2 t.snap.status
  | .v0 => le2 t.snap.v0
  | .i0 => le2 t.snap.i0
  | .i1 => le2 t.snap.i1
  | .accel => t.snap.accel.bytes
  | .gyro => t.snap.gyro.bytes
  | .mag => t.snap.mag.bytes
  | .temperature => le2 t.snap.temperature
  | .pressure => le4 t.snap.pressure
  | .rxPpm => halvesBytes t.snap.rxPpm.toList
  | .auxChanMask => [t.snap.auxChanMask]
  | .commands => t.snap.commands.bytes
  | .fAndT => t.snap.fAndT.bytes
  | .pidFzMaster => t.snap.pidFzMaster.bytes
  | .pidTxMaster => t.snap.pidTxMaster.bytes
  | .pidTyMaster => t.snap.pidTyMaster.bytes
  | .pidTzMaster => t.snap.pidTzMaster.bytes
  | .pidFzSlave => t.snap.pidFzSlave.bytes
  | .pidTxSlave => t.snap.pidTxSlave.bytes
  | .pidTySlave => t.snap.pidTySlave.bytes
  | .pidTzSlave => t.snap.pidTzSlave.bytes
  | .motorOut => halvesBytes t.snap.motorOut.toList
  | .kineAngle => t.snap.kineAngle.bytes
  | .kineRate => t.snap.kineRate.bytes
  | .kineAltitude => le4 t.snap.kineAltitude
  | .loopCount => le4 t.snap.loopCount

/-- The bytes a row of the table appends (R88, R89, R261). A row as R88 lists its field appends what the
field's rule says; any other appends the snapshot's bytes of its width, and a `MICROS` row of another
width a free value of `ts` (notes/assumptions/18.md). -/
def Telem.rowBytes (t : Telem) (r : TelemetryRow) : List Byte :=
  match r.name with
  | .field f =>
    if r.size = f.size then t.fieldBytes f
    else if f = .micros then leN r.size (Config.unstatedTimestamp t.ts (8 * r.size)).toNat
    else t.snap.otherBytes r
  | .other _ => t.snap.otherBytes r

/-- One row of the table in step (6) of `EMIT`: append its bytes if its bit is set in `eff` (R89, R261). -/
def emitRow (r : TelemetryRow) (s : State) : Res State :=
  if s.effSelected r.bit then put (s.tel.rowBytes r) s else .ok s

/-- The body of a State frame: every row in table order (R89, R261 step (6)). -/
def emitRows (s : State) : Res State := runAll (s.params.telemetryFields.map emitRow) s

/-- The table row of a field, if the table has one (R4, R88). -/
def Params.rowOf (p : Params) (f : TelField) : Option TelemetryRow :=
  p.telemetryFields.find? fun r => r.name = .field f

/-- A STATE row: the table's row of this field; a field that the table lacks selects nothing. -/
def stateRow (f : TelField) (s : State) : Res State :=
  match Params.rowOf s.params f with
  | some r => emitRow r s
  | none => .ok s

/-- Steps (4) to (7) of `EMIT`: header, snapshot, body, and the frame to its destination (R261). -/
def buildState (ts : Word) (toLog : Bool) (s : State) : Res State :=
  (beginFrame .large s.params.typeState s.tel.eff s).bind fun t =>
    (emitRows { (snapshotTelemetry t).1 with
        tel := { t.tel with ts := ts, snap := (snapshotTelemetry t).2 } }).bind
      (sendFrame .emit (if toLog then .log else .wire))

/-- Steps (2) and (3) of `EMIT`: the effective mask; nothing is emitted when it is zero (R261). -/
def emitMask (ts mask : Word) (toLog : Bool) (s : State) : Res State :=
  if (if mask = 0#32 then s.ctl.telemetryMask else mask) = 0#32 then
    .ok { s with tel := { s.tel with eff := 0#32 } }
  else
    buildState ts toLog
      { s with tel := { s.tel with eff := if mask = 0#32 then s.ctl.telemetryMask else mask } }

/-- `EMIT(ts, mask, toLog)` (R261), step (1) the log gate. -/
def emitState (ts mask : Word) (toLog : Bool) (s : State) : Res State :=
  if toLog then
    (if (logIsOpen s).2 then emitMask ts mask true (logIsOpen s).1 else .ok (logIsOpen s).1)
  else emitMask ts mask false s

/-! ### The STATE rows -/

/-- `MICROS` (R270). -/
def execMicros (s : State) : Host.Outcome State Fault Refusal :=
  outcome (stateRow .micros s)

/-- `STATUS` (R271). -/
def execStatus (s : State) : Host.Outcome State Fault Refusal :=
  outcome (stateRow .status s)

/-- `V0` (R272). -/
def execV0 (s : State) : Host.Outcome State Fault Refusal :=
  outcome (stateRow .v0 s)

/-- `I0` (R273). -/
def execI0 (s : State) : Host.Outcome State Fault Refusal :=
  outcome (stateRow .i0 s)

/-- `I1` (R274). -/
def execI1 (s : State) : Host.Outcome State Fault Refusal :=
  outcome (stateRow .i1 s)

/-- `ACCEL` (R275). -/
def execAccel (s : State) : Host.Outcome State Fault Refusal :=
  outcome (stateRow .accel s)

/-- `GYRO` (R276). -/
def execGyro (s : State) : Host.Outcome State Fault Refusal :=
  outcome (stateRow .gyro s)

/-- `MAG` (R277). -/
def execMag (s : State) : Host.Outcome State Fault Refusal :=
  outcome (stateRow .mag s)

/-- `TEMPERATURE` (R278). -/
def execTemperature (s : State) : Host.Outcome State Fault Refusal :=
  outcome (stateRow .temperature s)

/-- `PRESSURE` (R279). -/
def execPressure (s : State) : Host.Outcome State Fault Refusal :=
  outcome (stateRow .pressure s)

/-- `RX_PPM` (R280). -/
def execRxPpm (s : State) : Host.Outcome State Fault Refusal :=
  outcome (stateRow .rxPpm s)

/-- `AUX_CHAN_MASK` (R281). -/
def execAuxChanMask (s : State) : Host.Outcome State Fault Refusal :=
  outcome (stateRow .auxChanMask s)

/-- `COMMANDS` (R282). -/
def execCommands (s : State) : Host.Outcome State Fault Refusal :=
  outcome (stateRow .commands s)

/-- `F_AND_T` (R283). -/
def execFAndT (s : State) : Host.Outcome State Fault Refusal :=
  outcome (stateRow .fAndT s)

/-- `PID_FZ_MASTER` (R284). -/
def execPidFzMaster (s : State) : Host.Outcome State Fault Refusal :=
  outcome (stateRow .pidFzMaster s)

/-- `PID_TX_MASTER` (R285). -/
def execPidTxMaster (s : State) : Host.Outcome State Fault Refusal :=
  outcome (stateRow .pidTxMaster s)

/-- `PID_TY_MASTER` (R286). -/
def execPidTyMaster (s : State) : Host.Outcome State Fault Refusal :=
  outcome (stateRow .pidTyMaster s)

/-- `PID_TZ_MASTER` (R287). -/
def execPidTzMaster (s : State) : Host.Outcome State Fault Refusal :=
  outcome (stateRow .pidTzMaster s)

/-- `PID_FZ_SLAVE` (R288). -/
def execPidFzSlave (s : State) : Host.Outcome State Fault Refusal :=
  outcome (stateRow .pidFzSlave s)

/-- `PID_TX_SLAVE` (R289). -/
def execPidTxSlave (s : State) : Host.Outcome State Fault Refusal :=
  outcome (stateRow .pidTxSlave s)

/-- `PID_TY_SLAVE` (R290). -/
def execPidTySlave (s : State) : Host.Outcome State Fault Refusal :=
  outcome (stateRow .pidTySlave s)

/-- `PID_TZ_SLAVE` (R291). -/
def execPidTzSlave (s : State) : Host.Outcome State Fault Refusal :=
  outcome (stateRow .pidTzSlave s)

/-- `MOTOR_OUT` (R292). -/
def execMotorOut (s : State) : Host.Outcome State Fault Refusal :=
  outcome (stateRow .motorOut s)

/-- `KINE_ANGLE` (R293). -/
def execKineAngle (s : State) : Host.Outcome State Fault Refusal :=
  outcome (stateRow .kineAngle s)

/-- `KINE_RATE` (R294). -/
def execKineRate (s : State) : Host.Outcome State Fault Refusal :=
  outcome (stateRow .kineRate s)

/-- `KINE_ALTITUDE` (R295). -/
def execKineAltitude (s : State) : Host.Outcome State Fault Refusal :=
  outcome (stateRow .kineAltitude s)

/-- `LOOP_COUNT` (R296). -/
def execLoopCount (s : State) : Host.Outcome State Fault Refusal :=
  outcome (stateRow .loopCount s)

/-! ### `EMIT` and `StateLen` -/

/-- `EMIT` (R261). -/
def execEmit (ts mask : Word) (toLog : Bool) (s : State) : Host.Outcome State Fault Refusal :=
  outcome (emitState ts mask toLog s)

/-- `StateLen` (R263). -/
def execStateLen (mask : Word) (s : State) : Host.Outcome State Fault Refusal :=
  .next (s.setResult (.count (s.params.stateLen mask)))

end Sys2Proof.Machine
end

