-- ==== Sys2Proof/Machine/Dispatch.lean ====
section
/-! DEFINITION. The dispatch of an instruction to its meaning: one arm per constructor of `Instr`. -/

namespace Sys2Proof.Machine

def exec (i : Instr) (s : State) : Host.Outcome State Fault Refusal :=
  match i with
  | .setEepromData => Sys2Proof.Machine.execSetEepromData s
  | .reinitEepromData => Sys2Proof.Machine.execReinitEepromData s
  | .reqEepromData => Sys2Proof.Machine.execReqEepromData s
  | .reqEnableIteration => Sys2Proof.Machine.execReqEnableIteration s
  | .motorOverrideSpeed0 => Sys2Proof.Machine.execMotorOverrideSpeed0 s
  | .motorOverrideSpeed1 => Sys2Proof.Machine.execMotorOverrideSpeed1 s
  | .motorOverrideSpeed2 => Sys2Proof.Machine.execMotorOverrideSpeed2 s
  | .motorOverrideSpeed3 => Sys2Proof.Machine.execMotorOverrideSpeed3 s
  | .motorOverrideSpeed4 => Sys2Proof.Machine.execMotorOverrideSpeed4 s
  | .motorOverrideSpeed5 => Sys2Proof.Machine.execMotorOverrideSpeed5 s
  | .motorOverrideSpeed6 => Sys2Proof.Machine.execMotorOverrideSpeed6 s
  | .motorOverrideSpeed7 => Sys2Proof.Machine.execMotorOverrideSpeed7 s
  | .setCommandOverride => Sys2Proof.Machine.execSetCommandOverride s
  | .setStateMask => Sys2Proof.Machine.execSetStateMask s
  | .setStateDelay => Sys2Proof.Machine.execSetStateDelay s
  | .setSdWriteDelay => Sys2Proof.Machine.execSetSdWriteDelay s
  | .setLed => Sys2Proof.Machine.execSetLed s
  | .setSerialRc => Sys2Proof.Machine.execSetSerialRc s
  | .setCardRecording => Sys2Proof.Machine.execSetCardRecording s
  | .setPartialEepromData => Sys2Proof.Machine.execSetPartialEepromData s
  | .reinitPartialEepromData => Sys2Proof.Machine.execReinitPartialEepromData s
  | .reqPartialEepromData => Sys2Proof.Machine.execReqPartialEepromData s
  | .reqCardRecordingState => Sys2Proof.Machine.execReqCardRecordingState s
  | .reqResponse => Sys2Proof.Machine.execReqResponse s
  | .version k => Sys2Proof.Machine.execVersion k s
  | .pcb k => Sys2Proof.Machine.execPcb k s
  | .mixTable k => Sys2Proof.Machine.execMixTable k s
  | .magBias k => Sys2Proof.Machine.execMagBias k s
  | .channel k => Sys2Proof.Machine.execChannel k s
  | .pidParameters k => Sys2Proof.Machine.execPidParameters k s
  | .stateParameters k => Sys2Proof.Machine.execStateParameters k s
  | .ledStates k => Sys2Proof.Machine.execLedStates k s
  | .deviceName k => Sys2Proof.Machine.execDeviceName k s
  | .micros => Sys2Proof.Machine.execMicros s
  | .status => Sys2Proof.Machine.execStatus s
  | .v0 => Sys2Proof.Machine.execV0 s
  | .i0 => Sys2Proof.Machine.execI0 s
  | .i1 => Sys2Proof.Machine.execI1 s
  | .accel => Sys2Proof.Machine.execAccel s
  | .gyro => Sys2Proof.Machine.execGyro s
  | .mag => Sys2Proof.Machine.execMag s
  | .temperature => Sys2Proof.Machine.execTemperature s
  | .pressure => Sys2Proof.Machine.execPressure s
  | .rxPpm => Sys2Proof.Machine.execRxPpm s
  | .auxChanMask => Sys2Proof.Machine.execAuxChanMask s
  | .commands => Sys2Proof.Machine.execCommands s
  | .fAndT => Sys2Proof.Machine.execFAndT s
  | .pidFzMaster => Sys2Proof.Machine.execPidFzMaster s
  | .pidTxMaster => Sys2Proof.Machine.execPidTxMaster s
  | .pidTyMaster => Sys2Proof.Machine.execPidTyMaster s
  | .pidTzMaster => Sys2Proof.Machine.execPidTzMaster s
  | .pidFzSlave => Sys2Proof.Machine.execPidFzSlave s
  | .pidTxSlave => Sys2Proof.Machine.execPidTxSlave s
  | .pidTySlave => Sys2Proof.Machine.execPidTySlave s
  | .pidTzSlave => Sys2Proof.Machine.execPidTzSlave s
  | .motorOut => Sys2Proof.Machine.execMotorOut s
  | .kineAngle => Sys2Proof.Machine.execKineAngle s
  | .kineRate => Sys2Proof.Machine.execKineRate s
  | .kineAltitude => Sys2Proof.Machine.execKineAltitude s
  | .loopCount => Sys2Proof.Machine.execLoopCount s
  | .typeCommand => Sys2Proof.Machine.execTypeCommand s
  | .typeState => Sys2Proof.Machine.execTypeState s
  | .typeResponse => Sys2Proof.Machine.execTypeResponse s
  | .encode p => Sys2Proof.Machine.execEncode p s
  | .decode f cap => Sys2Proof.Machine.execDecode f cap s
  | .rxByte b => Sys2Proof.Machine.execRxByte b s
  | .process => Sys2Proof.Machine.execProcess s
  | .emit ts mask toLog => Sys2Proof.Machine.execEmit ts mask toLog s
  | .reset => Sys2Proof.Machine.execReset s
  | .parseInto ts => Sys2Proof.Machine.execParseInto ts s
  | .append bs => Sys2Proof.Machine.execAppend bs s
  | .beginFrame c type mask => Sys2Proof.Machine.execBeginFrame c type mask s
  | .send d => Sys2Proof.Machine.execSend d s
  | .verify => Sys2Proof.Machine.execVerify s
  | .fromString bs => Sys2Proof.Machine.execFromString bs s
  | .readFull => Sys2Proof.Machine.execReadFull s
  | .writeFull => Sys2Proof.Machine.execWriteFull s
  | .writePartial sub ledsub => Sys2Proof.Machine.execWritePartial sub ledsub s
  | .parsePartial sub => Sys2Proof.Machine.execParsePartial sub s
  | .resetPartial sub => Sys2Proof.Machine.execResetPartial sub s
  | .configValid => Sys2Proof.Machine.execConfigValid s
  | .commit => Sys2Proof.Machine.execCommit s
  | .stateLen mask => Sys2Proof.Machine.execStateLen mask s

end Sys2Proof.Machine
end

