-- ==== Sys2Proof/Machine/Fetch.lean ====
section
/-! DEFINITION. Fetching: the next stimulus, the instruction its bytes name, and the machine set up so
that a bare table word is the next instruction. -/

namespace Sys2Proof.Machine

/-- An instruction as the environment offers it: its encoded bytes. -/
def offer (i : Instr) : Stimulus := .instr (encode i).1 (encode i).2

/-- A snapshot has one value of the row's width for each row of the table but `MICROS` (R264, R331). The
typed fields have theirs; the other rows' stand in `others`. -/
def Snapshot.wf (n : Snapshot) (p : Params) : Bool :=
  p.telemetryFields.all fun r =>
    match r.name with
    | .field f => r.size == f.size || f == .micros || n.hasOther r
    | .other _ => n.hasOther r

/-- The log is locked as the last `setLock` asked (R332). -/
def Env.lockKept (e : Env) : Bool :=
  match e.lockSet with
  | none => true
  | some b => e.logLocked == b

/-- A collaborators' state that their contracts allow: records of `CFG_TOTAL` bytes (R45, R330, R331), a
value for each telemetry row (R331), the lock as the last `setLock` left it (R332). -/
def Env.wf (e : Env) (p : Params) : Bool :=
  e.persist.length == p.cfgTotal && e.liveCfg.length == p.cfgTotal && e.live.wf p && e.lockKept &&
    e.storeAnswers.all fun a =>
      match a with
      | .err (some r) => r.length == p.cfgTotal
      | _ => true

/-- What the collaborators may turn into between two steps (R56, R337): a state that their contracts allow,
with no `setLock` but the block's own (R332). -/
def Env.mayBecome (e e' : Env) (p : Params) : Bool := e'.wf p && e'.lockSet == e.lockSet

/-- The state a stimulus leaves for what it starts: the stimulus is taken, and the step's trace starts
empty (R314). -/
def State.advance (s : State) (rest : List Stimulus) : State :=
  { s with stimuli := rest, out := { s.out with trace := [] } }

/-- The instruction that offered bytes name, and the state it runs in. A word that selects several rows
is executed row by row in ascending order (R99), so the rows after the first are offered next
(notes/assumptions/11.md). -/
def fetchInstr (f : Format) (bs : List Byte) (rest : List Stimulus) (s : State) :
    Except Refusal (Instr × State) :=
  match decodeAll f bs with
  | .error e => .error (.undecodable e)
  | .ok [] => .error (.undecodable .selectsNothing)
  | .ok (i :: more) => .ok (i, s.advance (more.map offer ++ rest))

/-- RBUF holding a frame with the given type and mask and a body of zeros up to CAP_RX, its header
already parsed. -/
def readerAtBody (p : Params) (type mask : Word) : Reader :=
  ⟨Memory.empty.writeBytes 0 (le4 type ++ le4 mask), p.capRx, 8⟩

/-- What a bare table word needs besides its bytes: the word register it is matched against, and the
reader or writer that its row works on (notes/assumptions/10.md). -/
def placeWord (f : Format) (w : Nat) (s : State) : State :=
  match f with
  | .cmd =>
    { s with rd := readerAtBody s.params s.params.typeCommand (BitVec.ofNat 32 w),
             disp := { s.disp with type := s.params.typeCommand, m := BitVec.ofNat 32 w, ack := 0 } }
  | .hdr =>
    { s with rd := readerAtBody s.params (BitVec.ofNat 32 w) 0,
             disp := { s.disp with type := BitVec.ofNat 32 w, m := 0, ack := 0 } }
  | .sub =>
    { s with rd := readerAtBody s.params s.params.typeCommand 0,
             disp := { s.disp with sub := BitVec.ofNat 16 w, ok := true } }
  | .state =>
    { s with tel := { s.tel with eff := BitVec.ofNat 32 w },
             wr := { s.wr with
               buf := Memory.empty.writeBytes 0 (le4 s.params.typeState ++ le4 (BitVec.ofNat 32 w)),
               cap := s.params.capLarge, len := 8, ovf := false } }
  | .op => s

end Sys2Proof.Machine
end

