-- ==== Sys2Proof/Machine/Step.lean ====
section
/-! DEFINITION. One step of the machine: the head of what the environment offers (R10). -/

namespace Sys2Proof.Machine

/-- One step: with nothing offered the block is idle (R321); parameters that break R5 get no run; a
change of the collaborators between steps is taken as it is (R56); an offered instruction is decoded and
executed. -/
def step (s : State) : Host.Outcome State Fault Refusal :=
  match s.stimuli with
  | [] => .next s
  | st :: rest =>
    if s.params.wf then
      match st with
      | .collaborators e =>
        if s.env.mayBecome e s.params then .next { s.advance rest with env := e }
        else .refused .brokenContract
      | .instr f bs =>
        match fetchInstr f bs rest s with
        | .ok (i, t) => exec i t
        | .error r => .refused r
    else .refused .illFormedParameters

/-- The state with a bare word of the opcode table as its next instruction: the word's bytes are offered
first, with the context its row works on (notes/assumptions/10.md). -/
def State.withFetchWord (s : State) (nbits w : Nat) : State :=
  { placeWord (tableFormat nbits w) w s with
    stimuli := .instr (tableFormat nbits w) (tableBytes (tableFormat nbits w) w) :: s.stimuli }

end Sys2Proof.Machine
end

