-- ==== Sys2Proof/Safety.lean ====
section
/-! DEFINITION. What a safe run is: no fault (R9, R315), and the invariant that rules out states no run
reaches. -/

namespace Sys2Proof

/-- The record that `rec` and the LED choice `ledsub` make of a base record: the sub-fields that `sub`
selects are those of `rec` (of led-states, the entries that `ledsub` selects), the others those of the
base (R170, R175 to R177). -/
def Params.mergePartial (p : Params) (base rec : List Byte) (sub ledsub : Half) : List Byte :=
  SubField.all.flatMap fun k =>
    if sub.getLsbD (p.subBitOf k) then
      (if k = .ledStates then
        (List.range 16).flatMap fun i => if ledsub.getLsbD i then p.led rec i else p.led base i
       else p.field rec k)
    else p.field base k

/-- The submask words a request carries: `sub`, and `ledsub` only when led-states is selected (R85,
R244, R245). -/
def Params.requestWords (p : Params) (sub ledsub : Half) : List Byte :=
  le2 sub ++ if sub.getLsbD (p.subBitOf .ledStates) then le2 ledsub else []

/-- The mask bit that the table gives a telemetry field, if it has the field (R4, R88). -/
def Params.telBitOf (p : Params) (f : TelField) : Option Nat :=
  (p.telemetryFields.find? fun r => r.name = .field f).map TelemetryRow.bit

end Sys2Proof

namespace Sys2Proof.Machine

/-- Every space is in canonical form. -/
def State.memoryWf (s : State) : Prop := s.rd.buf.wf ∧ s.wr.buf.wf ∧ s.disp.wcfg.wf

/-- The reader stays inside its buffer: `0 <= rpos <= rlen <= CAP_RX` (R12, R140). -/
def State.readerBounded (s : State) : Prop := s.rd.pos ≤ s.rd.len ∧ s.rd.len ≤ s.params.capRx

/-- The writer stays inside its frame and its buffer: `wlen <= wcap`, `wlen <= CAP_LARGE` (R11, R42). -/
def State.writerBounded (s : State) : Prop := s.wr.len ≤ s.wr.cap ∧ s.wr.len ≤ s.params.capLarge

/-- Every queued payload fits the receive buffer (R22). -/
def State.queueBounded (s : State) : Prop := ∀ q ∈ s.rx.queue, q.length ≤ s.params.capRx

/-- The frame being received holds no terminator (R21). -/
def State.accNonzero (s : State) : Prop := 0#8 ∉ s.rx.acc

/-- The collaborators' state meets the contracts (R330 to R332). -/
def State.envOk (s : State) : Prop := Env.wf s.env s.params = true

/-- The ack law of R14, for a frame that is a Command frame. -/
def State.ackOk (s : State) : Prop := s.disp.type = s.params.typeCommand → s.disp.ackWithinMask

/-- The invariant of the machine. -/
structure State.Inv (s : State) : Prop where
  params : s.params.wf = true
  memory : s.memoryWf
  reader : s.readerBounded
  writer : s.writerBounded
  queue : s.queueBounded
  acc : s.accNonzero
  env : s.envOk
  ack : s.ackOk

/-- The streaming framer after a sequence of bytes since the last terminator (R119). -/
def streamAll (p : Params) (f : List Byte) : Framer := f.foldl (fun fr b => fr.stream p b) Framer.reset

/-- Under ESC the streaming registers are those that the bytes of `rx_acc` lead to (R21, R119). -/
def State.streamTracks (s : State) : Prop :=
  s.params.codecAlg = .esc →
    s.rx.fill = (streamAll s.params s.rx.acc).fill ∧ s.rx.esc = (streamAll s.params s.rx.acc).esc ∧
      s.rx.bad = (streamAll s.params s.rx.acc).bad

/-! ### The terms that statements use -/

/-- The reader has `n` unread bytes, in a frame that lies in RBUF (R140, R141). -/
def State.canParse (s : State) (n : Nat) : Prop :=
  s.rd.pos + n ≤ s.rd.len ∧ s.rd.len ≤ s.params.capRx

/-- Fewer than `n` unread bytes remain (R141). -/
def State.short (s : State) (n : Nat) : Prop := s.rd.len - s.rd.pos < n

/-- The next `n` unread bytes (R141). -/
def State.nextBytes (s : State) (n : Nat) : List Byte := s.rd.buf.readBytes s.rd.pos n

/-- The state with `n` bytes consumed (R141). -/
def State.consumed (s : State) (n : Nat) : State := { s with rd := { s.rd with pos := s.rd.pos + n } }

/-- The size in bytes of an operation's tuple `OP_PAYLOAD[op]` (R82, R141). -/
def State.tupleBytes (s : State) (op : CmdOp) : Nat := tupleSize (opPayload s.params op)

/-- The tuple can be parsed: the empty one always, any other when its bytes are there (R141). -/
def State.canTake (s : State) (op : CmdOp) : Prop := s.tupleBytes op = 0 ∨ s.canParse (s.tupleBytes op)

/-- The values of the tuple at the cursor (R142). -/
def State.operands (s : State) (op : CmdOp) : List FieldVal :=
  decodeTuple (opPayload s.params op) (s.nextBytes (s.tupleBytes op))

/-- The state in an operation's slot, with its tuple taken (R13, R205). -/
def State.took (s : State) (op : CmdOp) : State := (s.setSeq op.seq).consumed (s.tupleBytes op)

/-- The tuple of an operation is that of R82. -/
def State.usesR82 (s : State) (op : CmdOp) : Prop := opPayload s.params op = defaultPayload s.params op

/-- There is room for `n` more bytes in the frame being built, inside WBUF (R146). -/
def State.room (s : State) (n : Nat) : Prop :=
  s.wr.len + n ≤ s.wr.cap ∧ s.wr.len + n ≤ s.params.capLarge

/-- The state with a byte sequence appended to the frame being built (R146). -/
def State.appended (s : State) (bs : List Byte) : State :=
  { s with wr := { s.wr with buf := s.wr.buf.writeBytes s.wr.len bs, len := s.wr.len + bs.length } }

/-- The state with `n` bytes written into WCFG from an offset (R43, R170). -/
def State.wroteWcfg (s : State) (off : Nat) (bs : List Byte) : State :=
  { s with disp := { s.disp with wcfg := s.disp.wcfg.writeBytes off bs } }

/-- The state with a frame built and handed to the link: the writer left as the frame left it (R147,
R148). -/
def State.sentFrame (s : State) (c : FrameClass) (payload : List Byte) : State :=
  (writeBytes (encodeFrame s.params payload)
    { s with wr := ⟨s.wr.buf.writeBytes 0 payload, payload.length, s.params.cap c, false, .idle⟩ })

/-- The record in WCFG (R43). -/
def State.wcfgRecord (s : State) : List Byte := s.disp.wcfg.readBytes 0 s.params.cfgTotal

/-- The state after both transactions of a commit of `rec` (R179, R330, R331). -/
def State.committed (s : State) (rec : List Byte) : State :=
  (storageWrite rec (applyConfig rec s)).1

/-- The table has a row for the field and its bit is set in `eff` (R88). -/
def State.selectsRow (s : State) (f : TelField) (r : TelemetryRow) : Prop :=
  Params.rowOf s.params f = some r ∧ s.effSelected r.bit = true

/-- The table has a row for the field, of the width of R88, and its bit is set in `eff`. -/
def State.emits (s : State) (f : TelField) : Prop := ∃ r, s.selectsRow f r ∧ r.size = f.size

/-- The state in which a partial operation starts on the persisted record: its slot, its submask taken
from the payload, the record loaded into WCFG (R243, R244). -/
def State.partialBase (s : State) (op : CmdOp) (sub : Half) : State :=
  (((s.took op).setSub sub).record .storageRead).wroteWcfg 0 s.env.persist

/-- What a partial operation makes of the working copy: a failed parse raises `E_PARSE`, an invalid
record `E_VALID`, a failed store `E_COLLAB`; else the record is committed and acked (R243, R244). -/
def State.partialOutcome (t : State) (op : CmdOp) : State :=
  if t.disp.ok = false then t.raise .parse (.op op)
  else if t.params.configValid t.wcfgRecord = false then t.raise .valid (.op op)
  else if t.env.storeAnswer.isOk then (t.committed t.wcfgRecord).ackOp op
  else (t.committed t.wcfgRecord).raise .collab (.op op)

/-- The body of a State frame for an effective mask: the bytes of every selected row, in table order
(R89). -/
def stateBody (p : Params) (t : Telem) : List Byte :=
  p.telemetryFields.flatMap fun r => if t.eff.getLsbD r.bit then t.rowBytes r else []

/-- The effective mask of an `EMIT` (R261 step (2)). -/
def State.effectiveMask (s : State) (mask : Word) : Word :=
  if mask = 0#32 then s.ctl.telemetryMask else mask

/-- The type of a typed value (R90). -/
def fieldTypeOf : FieldVal → FieldType
  | .u8 _ => .u8
  | .i8 _ => .i8
  | .u16 _ => .u16
  | .i16 _ => .i16
  | .u32 _ => .u32
  | .i32 _ => .i32
  | .f32 _ => .f32
  | .f32x3 _ _ _ => .f32x3
  | .bytes bs => .bytes bs.length
  | .tag _ => .tag

/-- The state at the start of the dispatch of a payload: RBUF loaded, the eight header bytes taken,
`type` and `m` read from them (R200 step 1). -/
def State.headerParsed (s : State) (payload : List Byte) (q : List (List Byte)) : State :=
  { s with
    rx := { s.rx with queue := q },
    rd := ⟨s.rd.buf.writeBytes 0 payload, payload.length, 8⟩,
    disp := { s.disp with type := word (payload.take 4), m := word ((payload.drop 4).take 4) } }

/-- Instructions executed one after the other, as long as each answers a next state (R99, R200). -/
def execAll : List Instr → State → Host.Outcome State Fault Refusal
  | [], s => .next s
  | i :: is, s =>
    match exec i s with
    | .next t => execAll is t
    | .fault e => .fault e
    | .refused r => .refused r

/-- The stimuli that the hardware's environment can offer: host steps (R10) and the collaborators' own
changes (R56). -/
def Stimulus.isHostStep : Stimulus → Bool
  | .instr f bs =>
    match decode f bs with
    | .ok i => i.isHostStep
    | .error _ => false
  | .collaborators _ => true

/-- The outcome is a next state. -/
def IsNext (o : Host.Outcome State Fault Refusal) : Prop := ∃ t, o = .next t

/-- The outcome is no fault. -/
def NoFault (o : Host.Outcome State Fault Refusal) : Prop := ∀ r, o ≠ .fault r

end Sys2Proof.Machine
end

