-- ==== Sys2Proof/Certificates/Slice0/Obligations.lean ====
section
/-! DEFINITION. The statements for the provers. Each names the rule of spec/ it comes from; the terms they
use are those of Sys2Proof/Safety.lean. A state equation `exec i s = .next t` says the whole effect of the
instruction: what the right-hand side does not write is unchanged. -/

open Sys2Proof Sys2Proof.Machine

/-! ### Frame Codec -/

/-- R111, L1 and L2 of R110: an encoded frame is a sequence of non-zero bytes and one `0x00`. -/
def Obligations.EncodedFrameIsZeroFree : Prop :=
  ∀ (p : Params) (x : List Byte), p.wf = true →
    encodeFrame p x = stuffed p x ++ [0#8] ∧ 0#8 ∉ stuffed p x

/-- L3 of R110: decoding the encoding of any payload within capacity gives the payload back, for both
algorithms. -/
def Obligations.DecodeInvertsEncode : Prop :=
  ∀ (p : Params) (x : List Byte) (cap : Nat), p.wf = true → x.length ≤ cap →
    decodeFrame p (stuffed p x) cap = some x

/-- R115 (b): the strict ESC decoder accepts only canonical encodings, so decoding is injective. -/
def Obligations.StrictEscDecodeIsCanonical : Prop :=
  ∀ (p : Params) (f x : List Byte) (cap : Nat), p.decodeStrict = true → 0#8 ∉ f →
    decodeEsc p f cap = some x → stuffedEsc p x = f ∧ x.length ≤ cap

/-- R113: the encoded length of ESC, its bounds, and the cost of a Command header with tag 0. -/
def Obligations.EscEncodedLength : Prop :=
  (∀ (p : Params) (x : List Byte), p.codecAlg = .esc →
    (encodeFrame p x).length =
        x.length + x.countP (fun b => decide (b = 0#8 ∨ b = p.escByte)) + 1 ∧
      x.length + 1 ≤ (encodeFrame p x).length ∧ (encodeFrame p x).length ≤ 2 * x.length + 1) ∧
  (stuffedEsc Config.params (le4 0#32)).length = 4 + 4

/-- R120: the byte-serial ESC transmitter produces `ENCODE` of the bytes in WBUF. -/
def Obligations.SerialiserProducesEncode : Prop :=
  ∀ (p : Params) (m : Memory) (n : Nat), p.codecAlg = .esc →
    serialiseEsc p m 0 n = encodeFrame p (m.readBytes 0 n)

/-- R119: the streaming framer has the payload, or the failure, that `DECODE` of the whole frame has. -/
def Obligations.StreamingFramerAgreesWithDecode : Prop :=
  ∀ (p : Params) (f : List Byte), 0#8 ∉ f →
    (streamAll p f).streamPayload = decodeEsc p f p.capRx

/-- R21, R119: under ESC every instruction keeps the streaming registers in step with `rx_acc`. -/
def Obligations.StreamRegistersStayInStep : Prop :=
  ∀ (i : Instr) (s t : State), s.streamTracks → exec i s = .next t → t.streamTracks

/-- R112, R114, R124, R125: the rows `ENCODE` and `DECODE` complete, leave their result for the caller,
and write nothing else. `DECODE` of a sequence that holds `0x00`, for which no rule states the result,
completes too, with `fail` or some payload within the capacity (the model's choice,
notes/assumptions/35.md). -/
def Obligations.EncodeAndDecodeRows : Prop :=
  ∀ s : State,
    (∀ x, exec (.encode x) s = .next (s.setResult (.bytes (stuffed s.params x ++ [0#8])))) ∧
    (∀ f cap x, 0#8 ∉ f → decodeFrame s.params f cap = some x →
      exec (.decode f cap) s = .next (s.setResult (.bytes x))) ∧
    (∀ f cap, 0#8 ∉ f → decodeFrame s.params f cap = none →
      exec (.decode f cap) s = .next (s.setResult .fail)) ∧
    (∀ f cap, 0#8 ∈ f → ∃ r, exec (.decode f cap) s = .next (s.setResult r) ∧
      (r = .fail ∨ ∃ x, r = .bytes x ∧ x.length ≤ cap))

/-- R117: a byte extends the frame; a terminator closes it and queues its payload, or raises `E_FRAME`
and drops it. Only `rx_acc`, `rx_queue` and the streaming registers beside them change. -/
def Obligations.ReceiveByte : Prop :=
  ∀ s : State,
    (∀ b, b ≠ 0#8 → ∃ t, exec (.rxByte b) s = .next t ∧ t.rx.acc = s.rx.acc ++ [b] ∧
      t.rx.queue = s.rx.queue ∧ t = { s with rx := t.rx }) ∧
    (∀ r, decodeFrame s.params s.rx.acc s.params.capRx = some r →
      ∃ t, exec (.rxByte 0#8) s = .next t ∧ t.rx.acc = [] ∧ t.rx.queue = s.rx.queue ++ [r] ∧
        t = { s with rx := t.rx }) ∧
    (decodeFrame s.params s.rx.acc s.params.capRx = none →
      ∃ t, exec (.rxByte 0#8) s = .next t ∧ t.rx.acc = [] ∧ t.rx.queue = s.rx.queue ∧
        t = ({ s with rx := t.rx } : State).raise .frame (.frame s.rx.acc))

/-! ### Field Reader and Field Writer -/

/-- R141: `ParseInto` takes the bytes of the whole tuple and leaves its values, or fails and changes
nothing but the result it reports. -/
def Obligations.ParseIntoRow : Prop :=
  ∀ (s : State) (ts : List FieldType),
    (s.canParse (tupleSize ts) →
      exec (.parseInto ts) s = .next ((s.consumed (tupleSize ts)).setResult
        (.tuple (decodeTuple ts (s.nextBytes (tupleSize ts)))))) ∧
    (s.short (tupleSize ts) → exec (.parseInto ts) s = .next (s.setResult .fail))

/-- R90, R142: a tuple of values is read back from its own encoding, whatever the types. -/
def Obligations.DecodedTupleIsWhatWasEncoded : Prop :=
  ∀ (vs : List FieldVal) (rest : List Byte),
    decodeTuple (vs.map fieldTypeOf) (vs.flatMap encodeField ++ rest) = vs ∧
      tupleSize (vs.map fieldTypeOf) = (vs.flatMap encodeField).length

/-- R146: `Append` writes the whole sequence behind the frame and reports `ok`, or writes nothing, sets
`wovf` and fails; no byte of WBUF outside the sequence changes. -/
def Obligations.AppendRow : Prop :=
  ∀ (s : State) (bs : List Byte),
    (s.room bs.length → exec (.append bs) s = .next ((s.appended bs).setResult .ok)) ∧
    (s.wr.cap < s.wr.len + bs.length →
      exec (.append bs) s = .next
        (({ s with wr := { s.wr with ovf := true } } : State).setResult .fail)) ∧
    (s.wr.buf.wf = true → ∀ a, (s.appended bs).wr.buf.read a =
      if s.wr.len ≤ a ∧ a < s.wr.len + bs.length then bs.getD (a - s.wr.len) 0#8
      else s.wr.buf.read a)

/-- R147, R148, R332, R333: `BeginFrame` starts a frame of the class's capacity with `wlen = 8` and the
header in WBUF; `Send` hands the encoded frame to its destination, or abandons an overflowed one. The
bytes handed over are added to the link's (the log's) and are one transaction of the trace; nothing else
changes. -/
def Obligations.FrameRows : Prop :=
  ∀ s : State,
    (∀ (c : FrameClass) (type mask : Word), 8 ≤ s.params.cap c → 8 ≤ s.params.capLarge →
      exec (.beginFrame c type mask) s = .next { s with
        wr := { s.wr with buf := s.wr.buf.writeBytes 0 (le4 type ++ le4 mask), len := 8,
                          cap := s.params.cap c, ovf := false } }) ∧
    (s.wr.ovf = false → s.wr.len ≤ s.params.capLarge →
      exec (.send .wire) s = .next
        (writeBytes (encodeFrame s.params (s.wr.buf.readBytes 0 s.wr.len))
          { s with wr := { s.wr with tx := .idle } }) ∧
      exec (.send .log) s = .next
        (logWrite (encodeFrame s.params (s.wr.buf.readBytes 0 s.wr.len))
          { s with wr := { s.wr with tx := .idle } })) ∧
    (s.wr.ovf = true → ∀ d, exec (.send d) s = .next (s.raise .overflow .send)) ∧
    (∀ bs, writeBytes bs s = { s with
      out := { s.out with wire := s.out.wire ++ bs, trace := s.out.trace ++ [.writeBytes bs] } }) ∧
    (∀ bs, logWrite bs s = { s with
      out := { s.out with log := s.out.log ++ bs, trace := s.out.trace ++ [.logWrite bs] } })

/-! ### Name Validator -/

/-- R161, R162: the legal characters are the 65 listed ones; a name is valid exactly when it has a
terminator and only legal characters before the first one. That the characters' byte values are ASCII is
presumed (R161 marks them general knowledge; notes/assumptions/28.md). -/
def Obligations.ValidNames : Prop :=
  (∀ c : Byte, legalChar c = true ↔
    c ∈ ("0123456789ABCDEFGHIJKLMNOPQRSTUVWXYZabcdefghijklmnopqrstuvwxyz _-".toList.map
      fun ch => BitVec.ofNat 8 ch.toNat)) ∧
  (List.range 256).countP (fun n => legalChar (BitVec.ofNat 8 n)) = 65 ∧
  ∀ name : List Byte, verifyName name = true ↔
    ∃ n, n < name.length ∧ name.getD n 0#8 = 0#8 ∧
      ∀ j < n, name.getD j 0#8 ≠ 0#8 ∧ legalChar (name.getD j 0#8) = true

/-- R164: `fromString` copies up to the terminator, the end or the capacity and fills with `0x00`; a
source of `NAME_CAP` or more characters leaves an invalid name. -/
def Obligations.NameFromString : Prop :=
  (∀ (s : State) (bs : List Byte),
    exec (.fromString bs) s = .next (s.setResult (.bytes (nameFromString s.params.nameCap bs)))) ∧
  (∀ (n : Nat) (bs : List Byte),
    nameFromString n bs =
      (bs.takeWhile fun b => b != 0#8).take n ++
        List.replicate (n - (bs.takeWhile fun b => b != 0#8).length) 0#8 ∧
    (n ≤ (bs.takeWhile fun b => b != 0#8).length → verifyName (nameFromString n bs) = false))

/-! ### Configuration Record -/

/-- R162, R178: `verify` and `ConfigValid` of the working copy; `RecordValid` is true everywhere by
default. Offered by themselves, both rows act on the record in WCFG (the model's choice,
notes/assumptions/24.md). -/
def Obligations.ValidationRows : Prop :=
  (∀ s : State,
    exec .verify s = .next (s.setResult
      (.flag (verifyName (s.params.field s.wcfgRecord .deviceName)))) ∧
    exec .configValid s = .next (s.setResult
      (.flag (verifyName (s.params.field s.wcfgRecord .deviceName) &&
        s.params.recordValid s.wcfgRecord)))) ∧
  ∀ r, Config.params.recordValid r = true

/-- R172, R173: `ReadFull` takes the whole record into WCFG, or nothing; `WriteFull` appends the record.
Offered by itself, `WriteFull` takes its record from `disp.record` (the model's choice,
notes/assumptions/24.md). -/
def Obligations.FullRecordRows : Prop :=
  ∀ s : State,
    (s.canParse s.params.cfgTotal →
      exec .readFull s = .next (((s.consumed s.params.cfgTotal).wroteWcfg 0
        (s.nextBytes s.params.cfgTotal)).setResult .ok) ∧
      (s.disp.wcfg.wf = true →
        ((s.consumed s.params.cfgTotal).wroteWcfg 0 (s.nextBytes s.params.cfgTotal)).wcfgRecord =
          s.nextBytes s.params.cfgTotal)) ∧
    (s.short s.params.cfgTotal → exec .readFull s = .next (s.setResult .fail)) ∧
    (s.room s.disp.record.length → exec .writeFull s = .next (s.appended s.disp.record))

/-- R86, R175: `WritePartial` appends the partial record layout, whose length is `PartialLen`. Offered by
itself, it takes its record from `disp.record` and copies its operands into the registers `sub` and `ledsub`
(the model's choice, notes/assumptions/24.md, 37.md). -/
def Obligations.WritePartialRow : Prop :=
  ∀ (s : State) (sub ledsub : Half), s.disp.record.length = s.params.cfgTotal →
    s.room (s.params.partialLen sub ledsub) →
    exec (.writePartial sub ledsub) s =
      .next (((s.setSub sub).setLedsub ledsub).appended
        (s.params.partialLayout s.disp.record sub ledsub)) ∧
    (s.params.partialLayout s.disp.record sub ledsub).length = s.params.partialLen sub ledsub

/-- R175, R176: `ParsePartial` on what `WritePartial` appends after the submask returns 1 and sets
exactly the selected sub-fields of WCFG to those of the record written. That the operand is copied into the
register `sub` is the model's choice (notes/assumptions/37.md). -/
def Obligations.ParsePartialReadsBackWritePartial : Prop :=
  ∀ (s : State) (rec : List Byte) (sub ledsub : Half), s.disp.wcfg.wf = true →
    rec.length = s.params.cfgTotal →
    s.canParse (s.params.partialLen sub ledsub - 2) →
    s.nextBytes (s.params.partialLen sub ledsub - 2) =
      (s.params.partialLayout rec sub ledsub).drop 2 →
    ∃ t, exec (.parsePartial sub) s = .next t ∧
      t.wcfgRecord = s.params.mergePartial s.wcfgRecord rec sub ledsub ∧
      (∀ a, s.params.cfgTotal ≤ a → t.disp.wcfg.read a = s.disp.wcfg.read a) ∧
      t = ({ s.consumed (s.params.partialLen sub ledsub - 2) with
        disp := { s.disp with
          sub := sub,
          ledsub := if sub.getLsbD (s.params.subBitOf .ledStates) then ledsub else s.disp.ledsub,
          ok := true, wcfg := t.disp.wcfg } } : State).setResult (.flag true)

/-- R177: `ResetPartial` sets exactly the selected sub-fields of WCFG to the defaults, reading the LED
sub-submask from the payload when led-states is selected. That the operand is copied into the register
`sub` is the model's choice (notes/assumptions/37.md). -/
def Obligations.ResetPartialRow : Prop :=
  ∀ (s : State) (sub ledsub : Half), s.disp.wcfg.wf = true → s.params.wf = true →
    s.canParse ((s.params.requestWords sub ledsub).length - 2) →
    s.nextBytes ((s.params.requestWords sub ledsub).length - 2) =
      (s.params.requestWords sub ledsub).drop 2 →
    ∃ t, exec (.resetPartial sub) s = .next t ∧
      t.wcfgRecord = s.params.mergePartial s.wcfgRecord s.params.cfgDefault sub ledsub ∧
      (∀ a, s.params.cfgTotal ≤ a → t.disp.wcfg.read a = s.disp.wcfg.read a) ∧
      t = ({ s.consumed ((s.params.requestWords sub ledsub).length - 2) with
        disp := { s.disp with
          sub := sub,
          ledsub := if sub.getLsbD (s.params.subBitOf .ledStates) then ledsub else s.disp.ledsub,
          ok := true, wcfg := t.disp.wcfg } } : State).setResult (.flag true)

/-- R179: `Commit` applies the working copy to the live system and then stores it; a failed store raises
`E_COLLAB` and fails, and the live system is not rolled back. Offered by itself, the row acts on the
record in WCFG (the model's choice, notes/assumptions/24.md). -/
def Obligations.CommitRow : Prop :=
  ∀ s : State,
    (s.env.storeAnswer = .ok →
      exec .commit s = .next ((s.committed s.wcfgRecord).setResult .ok) ∧
      (s.committed s.wcfgRecord).env.persist = s.wcfgRecord ∧
      (s.committed s.wcfgRecord).env.liveCfg = s.wcfgRecord ∧
      (s.committed s.wcfgRecord).out.trace =
        s.out.trace ++ [.applyConfig s.wcfgRecord, .storageWrite s.wcfgRecord true]) ∧
    (∀ a, s.env.storeAnswer = .err a →
      exec .commit s = .next
        (((s.committed s.wcfgRecord).raise .collab .commit).setResult .fail) ∧
      (s.committed s.wcfgRecord).env.persist = a.getD s.env.persist ∧
      (s.committed s.wcfgRecord).env.liveCfg = s.wcfgRecord ∧
      (s.committed s.wcfgRecord).out.trace =
        s.out.trace ++ [.applyConfig s.wcfgRecord, .storageWrite s.wcfgRecord false])

/-- R84, R175 to R177: what a selected SUB row other than led-states does in each of the three
procedures, and that a row whose parse fails clears `ok`; the failing row adds no `E_PARSE` of its own to
the trace, since the operation raises one (R313; the model's inference, notes/assumptions/19.md). -/
def Obligations.SubFieldRows : Prop :=
  ∀ (s : State) (k : SubField), k ≠ .ledStates → s.subSelected k = true →
    (s.disp.ok = true → s.canParse (s.params.cfgSizeOf k) →
      exec (k.instr .parse) s = .next ((s.consumed (s.params.cfgSizeOf k)).wroteWcfg
        (s.params.cfgOff k) (s.nextBytes (s.params.cfgSizeOf k)))) ∧
    (s.disp.ok = true → s.short (s.params.cfgSizeOf k) →
      exec (k.instr .parse) s = .next (s.setOk false)) ∧
    (exec (k.instr .reset) s = .next (s.wroteWcfg (s.params.cfgOff k)
        (s.params.field s.params.cfgDefault k))) ∧
    (s.room (s.params.field s.disp.record k).length →
      exec (k.instr .write) s = .next (s.appended (s.params.field s.disp.record k)))

/-- R176 case (b): after a failure, device-name is still parsed when `NAME_PARSE_UNCONDITIONAL`, and no
other sub-field is; with fewer than `NAME_CAP` bytes left that parse takes nothing and `ok` stays 0 (and
no second event is recorded: R313, notes/assumptions/19.md); a sub-field that `sub` does not select is not
touched by any procedure. -/
def Obligations.SubFieldRowsSkipped : Prop :=
  ∀ (s : State) (k : SubField),
    (s.subSelected k = false → ∀ w, exec (k.instr w) s = .next s) ∧
    (s.disp.ok = false → (k ≠ .deviceName ∨ s.params.nameParseUnconditional = false) →
      exec (k.instr .parse) s = .next s) ∧
    (s.disp.ok = false → k = .deviceName → s.subSelected k = true →
      s.params.nameParseUnconditional = true → s.canParse s.params.nameCap →
      exec (k.instr .parse) s = .next ((s.consumed s.params.nameCap).wroteWcfg
        (s.params.cfgOff k) (s.nextBytes s.params.nameCap))) ∧
    (s.disp.ok = false → k = .deviceName → s.subSelected k = true →
      s.params.nameParseUnconditional = true → s.short s.params.nameCap →
      exec (k.instr .parse) s = .next s)

/-- R85, R176: the led-states row of `ParsePartial` reads the sub-submask and then one entry for each of
its bits, in ascending order. When entry `k` is the first that runs short, `ok` is cleared, no later entry
is tried, and the entries before it stay in WCFG and consumed (no event of its own: R313,
notes/assumptions/19.md). Every byte of WCFG outside the entries that parsed is unchanged. -/
def Obligations.LedStatesParse : Prop :=
  ∀ (s : State) (l : Half) (n : Nat), s.disp.wcfg.wf = true → s.subSelected .ledStates = true →
    s.disp.ok = true → s.nextBytes 2 = le2 l →
    let e := s.params.ledEntrySize
    let c := fun k : Nat => (List.range k).countP fun j => l.getLsbD j
    n ≤ 16 → s.canParse (2 + e * c n) →
    (n = 16 ∨ (l.getLsbD n = true ∧ (s.consumed (2 + e * c n)).short e)) →
    ∃ t, exec (.ledStates .parse) s = .next t ∧
      (∀ i < n, l.getLsbD i = true →
        t.disp.wcfg.readBytes (s.params.ledOff i) e = s.rd.buf.readBytes (s.rd.pos + 2 + e * c i) e) ∧
      (∀ a, (∀ i < n, l.getLsbD i = true → a < s.params.ledOff i ∨ s.params.ledOff i + e ≤ a) →
        t.disp.wcfg.read a = s.disp.wcfg.read a) ∧
      t = { s.consumed (2 + e * c n) with
        disp := { s.disp with ledsub := l, ok := decide (n = 16), wcfg := t.disp.wcfg } }

/-- R175, R177: the led-states row of `ResetPartial` and of `WritePartial`, and the failure of the
sub-submask, which clears `ok`; the row adds no `E_PARSE` of its own to the trace, since the operation
raises one (R313; the model's inference, notes/assumptions/19.md). -/
def Obligations.LedStatesResetAndWrite : Prop :=
  ∀ s : State, s.subSelected .ledStates = true →
    (∀ l, s.disp.wcfg.wf = true → s.params.cfgDefault.length = s.params.cfgTotal →
      s.nextBytes 2 = le2 l → s.canParse 2 →
      ∃ t, exec (.ledStates .reset) s = .next t ∧
        (∀ i < 16, l.getLsbD i = true →
          t.disp.wcfg.readBytes (s.params.ledOff i) s.params.ledEntrySize =
            s.params.led s.params.cfgDefault i) ∧
        (∀ a, (∀ i < 16, l.getLsbD i = true →
            a < s.params.ledOff i ∨ s.params.ledOff i + s.params.ledEntrySize ≤ a) →
          t.disp.wcfg.read a = s.disp.wcfg.read a) ∧
        t = { s.consumed 2 with disp := { s.disp with ledsub := l, wcfg := t.disp.wcfg } }) ∧
    (s.short 2 →
      exec (.ledStates .reset) s = .next (s.setOk false) ∧
      (s.disp.ok = true → exec (.ledStates .parse) s = .next (s.setOk false))) ∧
    (s.room (s.params.partialField s.disp.record s.disp.sub s.disp.ledsub .ledStates).length →
      exec (.ledStates .write) s = .next (s.appended
        (s.params.partialField s.disp.record s.disp.sub s.disp.ledsub .ledStates)))

/-! ### Dispatcher: the simple operations -/

/-- R13, R200, R202, R204, R205: a slot whose mask bit is clear does nothing but move the sequencer; an
operation whose tuple does not parse raises `E_PARSE` and changes nothing else, its ack bit and the cursor
included; one whose tuple parses takes it and acts on its values, whatever tuple `OP_PAYLOAD` gives it
(for a tuple other than R82's the model's inference, notes/assumptions/17.md). At reset every tuple is
R82's. -/
def Obligations.SlotsWithAndWithoutEffect : Prop :=
  ∀ (s : State) (op : CmdOp),
    (s.selected op = false → exec op.instr s = .next (s.setSeq op.seq)) ∧
    (s.selected op = true → s.short (s.tupleBytes op) →
      exec op.instr s = .next ((s.setSeq op.seq).raise .parse (.op op))) ∧
    (s.selected op = true → s.canTake op →
      exec op.instr s = outcome (act op (s.operands op) (s.took op))) ∧
    (∀ ts, s.params.opPayload.lookup op = some ts → opPayload s.params op = ts) ∧
    opPayload Config.params op = defaultPayload Config.params op

/-- R210, R212, R216, R217: the operations that hand their whole tuple to the live system in one
transaction and set their ack bit, or raise `E_PARSE` when it does not parse; and their default bits. -/
def Obligations.ForwardingOperations : Prop :=
  ∀ s : State,
    (s.usesR82 .reqEnableIteration → s.selected .reqEnableIteration = true → s.canParse 1 →
      exec .reqEnableIteration s = .next ((((s.setSeq 3).consumed 1).record
        (.motorEnableIteration [.u8 (byte (s.nextBytes 1))])).ackOp .reqEnableIteration)) ∧
    (s.usesR82 .setCommandOverride → s.selected .setCommandOverride = true → s.canParse 1 →
      exec .setCommandOverride s = .next ((((s.setSeq 12).consumed 1).record
        (.setCommandOverride [.u8 (byte (s.nextBytes 1))])).ackOp .setCommandOverride)) ∧
    (s.usesR82 .setLed → s.selected .setLed = true → s.canParse s.params.ledCmdSize →
      exec .setLed s = .next ((((s.setSeq 16).consumed s.params.ledCmdSize).record
        (.setLed [.bytes (s.nextBytes s.params.ledCmdSize)])).ackOp .setLed)) ∧
    (∀ (en aux : Byte) (th pi ro ya : Half), s.usesR82 .setSerialRc →
      s.selected .setSerialRc = true → s.canParse 10 →
      s.nextBytes 10 = [en] ++ le2 th ++ le2 pi ++ le2 ro ++ le2 ya ++ [aux] →
      exec .setSerialRc s = .next ((((s.setSeq 17).consumed 10).record
        (.setSerialRc [.u8 en, .i16 th, .i16 pi, .i16 ro, .i16 ya, .u8 aux])).ackOp .setSerialRc)) ∧
    (∀ op ∈ [CmdOp.reqEnableIteration, .setCommandOverride, .setLed, .setSerialRc],
      s.selected op = true → s.short (s.tupleBytes op) →
      exec op.instr s = .next ((s.setSeq op.seq).raise .parse (.op op))) ∧
    [CmdOp.reqEnableIteration, .setCommandOverride, .setLed, .setSerialRc].map Config.params.cmdBitOf =
      [4, 13, 17, 18] ∧ Config.params.ledCmdSize = 9

/-- R17 to R19, R213 to R215: the three operations that write a control register, or raise
`E_PARSE`; and their default bits. -/
def Obligations.ControlRegisterOperations : Prop :=
  ∀ s : State,
    (s.usesR82 .setStateMask → s.selected .setStateMask = true → s.canParse 4 →
      exec .setStateMask s = .next (({ (s.setSeq 13).consumed 4 with
        ctl := { s.ctl with telemetryMask := word (s.nextBytes 4) } } : State).ackOp .setStateMask)) ∧
    (s.usesR82 .setStateDelay → s.selected .setStateDelay = true → s.canParse 2 →
      exec .setStateDelay s = .next (({ (s.setSeq 14).consumed 2 with
        ctl := { s.ctl with sendInterval := half (s.nextBytes 2) } } : State).ackOp .setStateDelay)) ∧
    (s.usesR82 .setSdWriteDelay → s.selected .setSdWriteDelay = true → s.canParse 2 →
      exec .setSdWriteDelay s = .next (({ (s.setSeq 15).consumed 2 with
        ctl := { s.ctl with logInterval := half (s.nextBytes 2) } } : State).ackOp .setSdWriteDelay)) ∧
    (∀ op ∈ [CmdOp.setStateMask, .setStateDelay, .setSdWriteDelay],
      s.selected op = true → s.short (s.tupleBytes op) →
      exec op.instr s = .next ((s.setSeq op.seq).raise .parse (.op op))) ∧
    [CmdOp.setStateMask, .setStateDelay, .setSdWriteDelay].map Config.params.cmdBitOf = [14, 15, 16]

/-- R211, R331: each selected motor override is parsed and acked by itself, writes its own motor output
and no other, or raises its own `E_PARSE`; and their default bits. -/
def Obligations.MotorOverride : Prop :=
  ∀ (s : State) (i : Fin 8), s.usesR82 (.motor i) →
    (s.selected (.motor i) = true → s.canParse 2 →
      exec (CmdOp.motor i).instr s = .next ((setMotorOut i (half (s.nextBytes 2))
        ((s.setSeq (CmdOp.motor i).seq).consumed 2)).ackOp (.motor i))) ∧
    (s.selected (.motor i) = true → s.short 2 →
      exec (CmdOp.motor i).instr s =
        .next ((s.setSeq (CmdOp.motor i).seq).raise .parse (.op (.motor i)))) ∧
    Config.params.cmdBitOf (.motor i) = 5 + i.val ∧
    (∀ (v : Half) (j : Fin 8), (setMotorOut i v s).env.live.motorOut[j] =
      if j = i then v else s.env.live.motorOut[j]) ∧
    (∀ v : Half, setMotorOut i v s = { s with
      env := { s.env with live := { s.env.live with
        motorOut := (setMotorOut i v s).env.live.motorOut } },
      out := { s.out with trace := s.out.trace ++ [.setMotorOut i v] } })

/-- R218, R332: unlock, then open or close by bit 0, then lock by bit 1, in this order every time; or
`E_PARSE`; and its default bit. Each transaction is one event. The log is locked as the last `setLock`
asked, and a change of the collaborators between steps keeps it so. The log is open after `open` and
`close` as its own next answer says, which stands in `logAnswers`; after the last listed one as asked (the
model's choice, notes/assumptions/15.md). -/
def Obligations.SetCardRecording : Prop :=
  ∀ s : State,
    (s.usesR82 .setCardRecording → s.selected .setCardRecording = true →
      (s.canParse 1 → (byte (s.nextBytes 1)).getLsbD 0 = true →
        exec .setCardRecording s = .next ((logSetLock ((byte (s.nextBytes 1)).getLsbD 1)
          (logOpen (logSetLock false ((s.setSeq 18).consumed 1)))).ackOp .setCardRecording)) ∧
      (s.canParse 1 → (byte (s.nextBytes 1)).getLsbD 0 = false →
        exec .setCardRecording s = .next ((logSetLock ((byte (s.nextBytes 1)).getLsbD 1)
          (logClose (logSetLock false ((s.setSeq 18).consumed 1)))).ackOp .setCardRecording)) ∧
      (s.short 1 → exec .setCardRecording s =
        .next ((s.setSeq 18).raise .parse (.op .setCardRecording)))) ∧
    (∀ b, logSetLock b s = { s with
      env := { s.env with logLocked := b, lockSet := some b },
      out := { s.out with trace := s.out.trace ++ [.logSetLock b] } }) ∧
    (∀ b e rest t, s.env.lockSet = some b → s.stimuli = .collaborators e :: rest →
      step s = .next t → t.env.logLocked = b ∧ t.env.lockSet = some b) ∧
    logOpen s = { s with
      env := { s.env with
        logOpen := s.env.logAnswers.headD true, logAnswers := s.env.logAnswers.tail },
      out := { s.out with trace := s.out.trace ++ [.logOpen] } } ∧
    logClose s = { s with
      env := { s.env with
        logOpen := s.env.logAnswers.headD false, logAnswers := s.env.logAnswers.tail },
      out := { s.out with trace := s.out.trace ++ [.logClose] } } ∧
    Config.params.cmdBitOf .setCardRecording = 19

/-! ### Dispatcher: configuration operations, requests and Response -/

/-- R240: a record that parses and is valid is applied, stored, and acked when the store answers `Ok`;
one that parses and is invalid raises `E_VALID`, and nothing is applied, stored or acked; one that does
not parse raises `E_PARSE`, and nothing is consumed; and its default bit. -/
def Obligations.SetEepromData : Prop :=
  ∀ s : State, s.disp.wcfg.wf = true → s.usesR82 .setEepromData → s.selected .setEepromData = true →
    let r := s.nextBytes s.params.cfgTotal
    let u := ((s.setSeq 0).consumed s.params.cfgTotal).wroteWcfg 0 r
    (s.canParse s.params.cfgTotal → s.params.configValid r = true → s.env.storeAnswer = .ok →
      exec .setEepromData s = .next ((u.committed r).ackOp .setEepromData)) ∧
    (s.canParse s.params.cfgTotal → s.params.configValid r = true →
      ∀ a, s.env.storeAnswer = .err a →
      exec .setEepromData s = .next ((u.committed r).raise .collab (.op .setEepromData))) ∧
    (s.canParse s.params.cfgTotal → s.params.configValid r = false →
      exec .setEepromData s = .next (u.raise .valid (.op .setEepromData))) ∧
    (s.short s.params.cfgTotal →
      exec .setEepromData s = .next ((s.setSeq 0).raise .parse (.op .setEepromData))) ∧
    Config.params.cmdBitOf .setEepromData = 1

/-- R241: the defaults are applied and stored without a validity test, and acked when the store answers
`Ok`; and its default bit. -/
def Obligations.ReinitEepromData : Prop :=
  ∀ s : State, s.disp.wcfg.wf = true → s.params.wf = true → s.usesR82 .reinitEepromData →
    s.selected .reinitEepromData = true →
    (s.env.storeAnswer = .ok →
      exec .reinitEepromData s = .next ((((s.setSeq 1).wroteWcfg 0 s.params.cfgDefault).committed
        s.params.cfgDefault).ackOp .reinitEepromData)) ∧
    (∀ a, s.env.storeAnswer = .err a →
      exec .reinitEepromData s = .next ((((s.setSeq 1).wroteWcfg 0 s.params.cfgDefault).committed
        s.params.cfgDefault).raise .collab (.op .reinitEepromData))) ∧
    Config.params.cmdBitOf .reinitEepromData = 2

/-- R75, R242: one CFGFULL frame with the live record goes to the link; the ack bit is set; and its
default bit. -/
def Obligations.ReqEepromData : Prop :=
  ∀ s : State, s.params.wf = true → s.wr.buf.wf = true → s.env.liveCfg.length = s.params.cfgTotal →
    s.usesR82 .reqEepromData → s.selected .reqEepromData = true →
    exec .reqEepromData s = .next (((((s.setSeq 2).record .readConfig).setRecord
      s.env.liveCfg).sentFrame .large
        (le4 s.params.typeCommand ++ le4 (s.params.cmdMask .setEepromData) ++ s.env.liveCfg)).ackOp
      .reqEepromData) ∧
    Config.params.cmdBitOf .reqEepromData = 3

/-- R243: with a payload that carries sub-fields of `rec`, the persisted record with exactly those
replaced is applied, stored and acked. -/
def Obligations.SetPartialEepromDataCommits : Prop :=
  ∀ (s : State) (rec : List Byte) (sub ledsub : Half), s.disp.wcfg.wf = true →
    s.env.persist.length = s.params.cfgTotal → rec.length = s.params.cfgTotal →
    s.usesR82 .setPartialEepromData → s.selected .setPartialEepromData = true →
    s.canParse (s.params.partialLen sub ledsub) →
    s.nextBytes (s.params.partialLen sub ledsub) = s.params.partialLayout rec sub ledsub →
    s.params.configValid (s.params.mergePartial s.env.persist rec sub ledsub) = true →
    s.env.storeAnswer = .ok →
    ∃ t, exec .setPartialEepromData s = .next t ∧
      t.env = { s.env with
        persist := s.params.mergePartial s.env.persist rec sub ledsub,
        liveCfg := s.params.mergePartial s.env.persist rec sub ledsub,
        storeAnswers := s.env.storeAnswers.tail } ∧
      t.out = { s.out with trace := s.out.trace ++ [.storageRead,
        .applyConfig (s.params.mergePartial s.env.persist rec sub ledsub),
        .storageWrite (s.params.mergePartial s.env.persist rec sub ledsub) true] } ∧
      t.disp = { s.disp with
        ack := s.disp.ack ||| s.params.cmdMask .setPartialEepromData, seq := 19, sub := sub,
        ledsub := if sub.getLsbD (s.params.subBitOf .ledStates) then ledsub else s.disp.ledsub,
        ok := true, wcfg := t.disp.wcfg } ∧
      t.wcfgRecord = s.params.mergePartial s.env.persist rec sub ledsub ∧
      (∀ a, s.params.cfgTotal ≤ a → t.disp.wcfg.read a = s.disp.wcfg.read a) ∧
      t = { s.consumed (s.params.partialLen sub ledsub) with
        disp := t.disp, env := t.env, out := t.out }

/-- R244: the persisted record with exactly the selected sub-fields replaced by the defaults is applied,
stored and acked. -/
def Obligations.ReinitPartialEepromDataCommits : Prop :=
  ∀ (s : State) (sub ledsub : Half), s.disp.wcfg.wf = true → s.params.wf = true →
    s.env.persist.length = s.params.cfgTotal → s.usesR82 .reinitPartialEepromData →
    s.selected .reinitPartialEepromData = true →
    s.canParse (s.params.requestWords sub ledsub).length →
    s.nextBytes (s.params.requestWords sub ledsub).length = s.params.requestWords sub ledsub →
    s.params.configValid
      (s.params.mergePartial s.env.persist s.params.cfgDefault sub ledsub) = true →
    s.env.storeAnswer = .ok →
    ∃ t, exec .reinitPartialEepromData s = .next t ∧
      t.env = { s.env with
        persist := s.params.mergePartial s.env.persist s.params.cfgDefault sub ledsub,
        liveCfg := s.params.mergePartial s.env.persist s.params.cfgDefault sub ledsub,
        storeAnswers := s.env.storeAnswers.tail } ∧
      t.out = { s.out with trace := s.out.trace ++ [.storageRead,
        .applyConfig (s.params.mergePartial s.env.persist s.params.cfgDefault sub ledsub),
        .storageWrite
          (s.params.mergePartial s.env.persist s.params.cfgDefault sub ledsub) true] } ∧
      t.disp = { s.disp with
        ack := s.disp.ack ||| s.params.cmdMask .reinitPartialEepromData, seq := 20, sub := sub,
        ledsub := if sub.getLsbD (s.params.subBitOf .ledStates) then ledsub else s.disp.ledsub,
        ok := true, wcfg := t.disp.wcfg } ∧
      t.wcfgRecord = s.params.mergePartial s.env.persist s.params.cfgDefault sub ledsub ∧
      (∀ a, s.params.cfgTotal ≤ a → t.disp.wcfg.read a = s.disp.wcfg.read a) ∧
      t = { s.consumed (s.params.requestWords sub ledsub).length with
        disp := t.disp, env := t.env, out := t.out }

/-- R76, R245: when the request parses, one CFGPART frame with the live record's partial layout goes to
the link and the ack bit is set; when the submask or the sub-submask does not, `E_PARSE` is raised and
nothing is sent; and its default bit. -/
def Obligations.ReqPartialEepromData : Prop :=
  ∀ (s : State) (sub ledsub : Half), s.params.wf = true → s.wr.buf.wf = true →
    s.env.liveCfg.length = s.params.cfgTotal → s.usesR82 .reqPartialEepromData →
    s.selected .reqPartialEepromData = true →
    ((sub.getLsbD (s.params.subBitOf .ledStates) = false → ledsub = 0#16) →
      s.canParse (s.params.requestWords sub ledsub).length →
      s.nextBytes (s.params.requestWords sub ledsub).length = s.params.requestWords sub ledsub →
      exec .reqPartialEepromData s = .next ((((((((s.setSeq 21).consumed
        (s.params.requestWords sub ledsub).length).setSub sub).setLedsub ledsub).setOk true).record
          .readConfig).setRecord s.env.liveCfg).sentFrame .large
          (le4 s.params.typeCommand ++ le4 (s.params.cmdMask .setPartialEepromData) ++
            s.params.partialLayout s.env.liveCfg sub ledsub) |>.ackOp .reqPartialEepromData)) ∧
    (s.short 2 → exec .reqPartialEepromData s =
      .next ((s.setSeq 21).raise .parse (.op .reqPartialEepromData))) ∧
    (s.canParse 2 → s.nextBytes 2 = le2 sub → sub.getLsbD (s.params.subBitOf .ledStates) = true →
      (s.consumed 2).short 2 →
      exec .reqPartialEepromData s = .next ((((((s.setSeq 21).consumed 2).setSub sub).setLedsub
        0#16).setOk false).raise .parse (.op .reqPartialEepromData))) ∧
    Config.params.cmdBitOf .reqPartialEepromData = 22

/-- R243, R244: what the two partial operations make of what `ParsePartial` and `ResetPartial` leave of
the persisted record: `E_PARSE`, `E_VALID`, `E_COLLAB`, or the committed record and the ack bit; a
submask that does not parse raises `E_PARSE` and reads no record; and their default bits. -/
def Obligations.PartialOperationOutcomes : Prop :=
  ∀ (s : State) (sub : Half), s.Inv →
    (s.usesR82 .setPartialEepromData → s.selected .setPartialEepromData = true →
      (s.short 2 → exec .setPartialEepromData s =
        .next ((s.setSeq 19).raise .parse (.op .setPartialEepromData))) ∧
      (s.canParse 2 → s.nextBytes 2 = le2 sub →
        ∃ t, exec (.parsePartial sub) (s.partialBase .setPartialEepromData sub) = .next t ∧
          exec .setPartialEepromData s =
            .next ((t.setResult s.out.result).partialOutcome .setPartialEepromData))) ∧
    (s.usesR82 .reinitPartialEepromData → s.selected .reinitPartialEepromData = true →
      (s.short 2 → exec .reinitPartialEepromData s =
        .next ((s.setSeq 20).raise .parse (.op .reinitPartialEepromData))) ∧
      (s.canParse 2 → s.nextBytes 2 = le2 sub →
        ∃ t, exec (.resetPartial sub) (s.partialBase .reinitPartialEepromData sub) = .next t ∧
          exec .reinitPartialEepromData s =
            .next ((t.setResult s.out.result).partialOutcome .reinitPartialEepromData))) ∧
    [CmdOp.setPartialEepromData, .reinitPartialEepromData].map Config.params.cmdBitOf = [20, 21]

/-- R77, R246: one RECSTATE frame with the log interval and the two log flags; the ack bit is set; and
its default bit. -/
def Obligations.ReqCardRecordingState : Prop :=
  ∀ s : State, s.params.wf = true → s.wr.buf.wf = true → s.usesR82 .reqCardRecordingState →
    s.selected .reqCardRecordingState = true →
    exec .reqCardRecordingState s = .next (((((s.setSeq 22).record
      (.logIsOpen s.env.logOpen)).record (.logIsLocked s.env.logLocked)).sentFrame .small
        (le4 s.params.typeCommand ++
          le4 (s.params.cmdMask .setSdWriteDelay ||| s.params.cmdMask .setCardRecording) ++
          le2 s.ctl.logInterval ++
          [BitVec.ofNat 8 (s.env.logOpen.toNat + 2 * s.env.logLocked.toNat)])).ackOp
      .reqCardRecordingState) ∧
    Config.params.cmdBitOf .reqCardRecordingState = 23

/-- R74, R247: one RESP frame with the mask and the ack word; no ack bit is set; and its default bit. -/
def Obligations.ReqResponse : Prop :=
  ∀ s : State, s.params.wf = true → s.wr.buf.wf = true → s.usesR82 .reqResponse →
    s.selected .reqResponse = true →
    exec .reqResponse s = .next ((s.setSeq 23).sentFrame .small
      (le4 s.params.typeResponse ++ le4 s.disp.m ++ le4 s.disp.ack)) ∧
    Config.params.cmdBitOf .reqResponse = 0

/-! ### Dispatcher: frames -/

/-- R13, R200: a Command frame is dispatched by clearing `ack` and executing the 24 operations' rows in
slot order, the Response last; then `seq` is 24. From every state of the invariant it completes. That the
row `TYPE_COMMAND` is this dispatch is the model's choice (notes/assumptions/26.md). -/
def Obligations.CommandFrameRunsSlotsInOrder : Prop :=
  ∀ s : State, s.Inv → s.disp.type = s.params.typeCommand →
    ∃ t, execAll (CmdOp.all.map CmdOp.instr) { s with disp := { s.disp with ack := 0#32 } } = .next t ∧
      exec .typeCommand s = .next (t.setSeq 24)

/-- R79: a header row of a type that is not Command ends the frame and does nothing else; a header row
of a tag that the frame does not have does nothing (the model's reading, notes/assumptions/26.md).
`PROCESS` with nothing queued does nothing (the model's inference, notes/assumptions/12.md). -/
def Obligations.OtherTypesAreIgnored : Prop :=
  ∀ s : State,
    (s.disp.type = s.params.typeState → exec .typeState s = .next (s.setSeq 24)) ∧
    (s.disp.type = s.params.typeResponse → exec .typeResponse s = .next (s.setSeq 24)) ∧
    (s.disp.type ≠ s.params.typeCommand → exec .typeCommand s = .next s) ∧
    (s.disp.type ≠ s.params.typeState → exec .typeState s = .next s) ∧
    (s.disp.type ≠ s.params.typeResponse → exec .typeResponse s = .next s) ∧
    (s.rx.queue = [] → exec .process s = .next s)

/-- R200, R201: `PROCESS` takes the oldest payload; under 8 bytes it raises `E_PARSE(header)`, a type
that is not Command is ignored (R79), and a Command frame is what the row `TYPE_COMMAND` makes of the
parsed header (that this row is the dispatch is the model's choice, notes/assumptions/26.md). Each case
completes. -/
def Obligations.ProcessOldestPayload : Prop :=
  ∀ (s : State) (x : List Byte) (q : List (List Byte)), s.Inv → s.rx.queue = x :: q →
    (x.length < 8 →
      exec .process s = .next ((({ s with
        rx := { s.rx with queue := q },
        rd := ⟨s.rd.buf.writeBytes 0 x, x.length, 0⟩ } : State).raise .parse .header).setSeq 24)) ∧
    (8 ≤ x.length → word (x.take 4) ≠ s.params.typeCommand →
      exec .process s = .next ((s.headerParsed x q).setSeq 24)) ∧
    (8 ≤ x.length → word (x.take 4) = s.params.typeCommand →
      ∃ t, exec .typeCommand (s.headerParsed x q) = .next t ∧ exec .process s = .next t)

/-- R14, R248: after a Command frame, `ack` has only bits of the mask, never the `REQ_RESPONSE` bit and
never a bit that no operation has. -/
def Obligations.AckOnlyRequestedOperations : Prop :=
  ∀ s t : State, s.params.wf = true → s.disp.type = s.params.typeCommand →
    exec .typeCommand s = .next t →
    t.disp.ack &&& ~~~s.disp.m = 0#32 ∧
      t.disp.ack.getLsbD (s.params.cmdBitOf .reqResponse) = false ∧
      ∀ b < 32, t.disp.ack.getLsbD b = true → ∃ op ∈ CmdOp.all, s.params.cmdBitOf op = b

/-- R180: no host step applies or stores a record that is not valid, and LIVECFG and PERSIST change only
through those two transactions. -/
def Obligations.OnlyValidRecordsAreCommitted : Prop :=
  ∀ (i : Instr) (s t : State), s.Inv → i.isHostStep = true → exec i s = .next t →
    ∃ evs, t.out.trace = s.out.trace ++ evs ∧
      (∀ r, .applyConfig r ∈ evs → s.params.configValid r = true) ∧
      (∀ r b, .storageWrite r b ∈ evs → s.params.configValid r = true) ∧
      ((∀ r, .applyConfig r ∉ evs) → t.env.liveCfg = s.env.liveCfg) ∧
      ((∀ r b, .storageWrite r b ∉ evs) → t.env.persist = s.env.persist)

/-- R149: no host step raises `E_OVERFLOW` or sets `wovf`, and every frame it sends fits. -/
def Obligations.NoFrameOverflows : Prop :=
  ∀ (i : Instr) (s t : State), s.Inv → s.wr.ovf = false → i.isHostStep = true →
    exec i s = .next t →
    t.wr.ovf = false ∧
      ∃ evs, t.out.trace = s.out.trace ++ evs ∧ ∀ w, .raised .overflow w ∉ evs

/-- R17 to R19, R41, R59: only the three operations that name a control register, the dispatch that
contains them and `RESET` write one; the frame being processed, the frame being received and the queue
are written only by the host steps that own them; no instruction changes a parameter or what the
environment offers. -/
def Obligations.OwnersOfState : Prop :=
  ∀ (i : Instr) (s t : State), exec i s = .next t →
    t.params = s.params ∧ t.stimuli = s.stimuli ∧
    (i ∉ [.setStateMask, .setStateDelay, .setSdWriteDelay, .typeCommand, .process, .reset] →
      t.ctl = s.ctl) ∧
    (i ≠ .process → t.rd.buf = s.rd.buf ∧ t.rd.len = s.rd.len ∧ s.rd.pos ≤ t.rd.pos) ∧
    (i ≠ .process → i ≠ .reset → (∀ b, i ≠ .rxByte b) → t.rx = s.rx) ∧
    ((∀ a m l, i ≠ .emit a m l) → t.tel = s.tel)

/-! ### Telemetry Encoder -/

/-- R270 to R274, R278, R279, R281, R295, R296: the rows of one value, of the widths that the rules give
them, and their default bits. -/
def Obligations.ScalarTelemetryRows : Prop :=
  ∀ s : State,
    (s.emits .micros → s.room 4 → exec .micros s = .next (s.appended (le4 s.tel.ts))) ∧
    (s.emits .status → s.room 2 → exec .status s = .next (s.appended (le2 s.tel.snap.status))) ∧
    (s.emits .v0 → s.room 2 → exec .v0 s = .next (s.appended (le2 s.tel.snap.v0))) ∧
    (s.emits .i0 → s.room 2 → exec .i0 s = .next (s.appended (le2 s.tel.snap.i0))) ∧
    (s.emits .i1 → s.room 2 → exec .i1 s = .next (s.appended (le2 s.tel.snap.i1))) ∧
    (s.emits .temperature → s.room 2 →
      exec .temperature s = .next (s.appended (le2 s.tel.snap.temperature))) ∧
    (s.emits .pressure → s.room 4 →
      exec .pressure s = .next (s.appended (le4 s.tel.snap.pressure))) ∧
    (s.emits .auxChanMask → s.room 1 →
      exec .auxChanMask s = .next (s.appended [s.tel.snap.auxChanMask])) ∧
    (s.emits .kineAltitude → s.room 4 →
      exec .kineAltitude s = .next (s.appended (le4 s.tel.snap.kineAltitude))) ∧
    (s.emits .loopCount → s.room 4 →
      exec .loopCount s = .next (s.appended (le4 s.tel.snap.loopCount))) ∧
    [TelField.micros, .status, .v0, .i0, .i1, .temperature, .pressure, .auxChanMask, .kineAltitude,
        .loopCount].map Config.params.telBitOf =
      [some 0, some 1, some 2, some 3, some 4, some 8, some 9, some 11, some 26, some 27]

/-- R275 to R277, R293, R294: the rows of three `f32` patterns, x first, and their default bits. -/
def Obligations.TripleTelemetryRows : Prop :=
  ∀ s : State, s.room 12 →
    (s.emits .accel → exec .accel s = .next (s.appended
      (le4 s.tel.snap.accel.x ++ le4 s.tel.snap.accel.y ++ le4 s.tel.snap.accel.z))) ∧
    (s.emits .gyro → exec .gyro s = .next (s.appended
      (le4 s.tel.snap.gyro.x ++ le4 s.tel.snap.gyro.y ++ le4 s.tel.snap.gyro.z))) ∧
    (s.emits .mag → exec .mag s = .next (s.appended
      (le4 s.tel.snap.mag.x ++ le4 s.tel.snap.mag.y ++ le4 s.tel.snap.mag.z))) ∧
    (s.emits .kineAngle → exec .kineAngle s = .next (s.appended
      (le4 s.tel.snap.kineAngle.x ++ le4 s.tel.snap.kineAngle.y ++ le4 s.tel.snap.kineAngle.z))) ∧
    (s.emits .kineRate → exec .kineRate s = .next (s.appended
      (le4 s.tel.snap.kineRate.x ++ le4 s.tel.snap.kineRate.y ++ le4 s.tel.snap.kineRate.z))) ∧
    [TelField.accel, .gyro, .mag, .kineAngle, .kineRate].map Config.params.telBitOf =
      [some 5, some 6, some 7, some 24, some 25]

/-- R284 to R291: the rows of the eight PID tuples, each from its own place of the snapshot, in the
order `lastTime, input, setpoint, pTerm, iTerm, dTerm`; and their default bits. -/
def Obligations.PidTelemetryRows : Prop :=
  [TelField.pidFzMaster, .pidTxMaster, .pidTyMaster, .pidTzMaster, .pidFzSlave, .pidTxSlave,
      .pidTySlave, .pidTzSlave].map Config.params.telBitOf =
    [some 15, some 16, some 17, some 18, some 19, some 20, some 21, some 22] ∧
  ∀ (s : State), s.room 24 → ∀ (f : TelField) (t : PidTuple),
    (f, t) ∈ [(TelField.pidFzMaster, s.tel.snap.pidFzMaster), (.pidTxMaster, s.tel.snap.pidTxMaster),
      (.pidTyMaster, s.tel.snap.pidTyMaster), (.pidTzMaster, s.tel.snap.pidTzMaster),
      (.pidFzSlave, s.tel.snap.pidFzSlave), (.pidTxSlave, s.tel.snap.pidTxSlave),
      (.pidTySlave, s.tel.snap.pidTySlave), (.pidTzSlave, s.tel.snap.pidTzSlave)] →
    s.emits f →
    exec f.instr s = .next (s.appended (le4 t.lastTime ++ le4 t.input ++ le4 t.setpoint ++
      le4 t.pTerm ++ le4 t.iTerm ++ le4 t.dTerm))

/-- R280, R282, R283, R292: the rows of several values, in the order the rules give, and their
default bits. -/
def Obligations.ArrayTelemetryRows : Prop :=
  ∀ s : State,
    (s.emits .rxPpm → s.room 12 → exec .rxPpm s = .next (s.appended
      (le2 s.tel.snap.rxPpm[0] ++ le2 s.tel.snap.rxPpm[1] ++ le2 s.tel.snap.rxPpm[2] ++
        le2 s.tel.snap.rxPpm[3] ++ le2 s.tel.snap.rxPpm[4] ++ le2 s.tel.snap.rxPpm[5]))) ∧
    (s.emits .commands → s.room 8 → exec .commands s = .next (s.appended
      (le2 s.tel.snap.commands.throttle ++ le2 s.tel.snap.commands.pitch ++
        le2 s.tel.snap.commands.roll ++ le2 s.tel.snap.commands.yaw))) ∧
    (s.emits .fAndT → s.room 16 → exec .fAndT s = .next (s.appended
      (le4 s.tel.snap.fAndT.fz ++ le4 s.tel.snap.fAndT.tx ++ le4 s.tel.snap.fAndT.ty ++
        le4 s.tel.snap.fAndT.tz))) ∧
    (s.emits .motorOut → s.room 16 → exec .motorOut s = .next (s.appended
      (le2 s.tel.snap.motorOut[0] ++ le2 s.tel.snap.motorOut[1] ++ le2 s.tel.snap.motorOut[2] ++
        le2 s.tel.snap.motorOut[3] ++ le2 s.tel.snap.motorOut[4] ++ le2 s.tel.snap.motorOut[5] ++
        le2 s.tel.snap.motorOut[6] ++ le2 s.tel.snap.motorOut[7]))) ∧
    [TelField.rxPpm, .commands, .fAndT, .motorOut].map Config.params.telBitOf =
      [some 10, some 12, some 13, some 23]

/-- R88, R89: a State row whose bit is clear, or that the table lacks, appends nothing; one that does not
fit sets `wovf` and appends nothing (R146). In a table that gives a field another width than R88 (D12), the
row appends the value of that width that the snapshot holds for it, and `MICROS` that many bytes (how such
values stand in the snapshot is the model's choice, notes/assumptions/18.md). -/
def Obligations.TelemetryRowsOfAnyTable : Prop :=
  ∀ (s : State) (f : TelField),
    ((∀ r, ¬ s.selectsRow f r) → exec f.instr s = .next s) ∧
    (∀ r, s.selectsRow f r → s.wr.cap < s.wr.len + r.size →
      exec f.instr s = .next { s with wr := { s.wr with ovf := true } }) ∧
    (∀ r bs, s.selectsRow f r → s.room r.size → r.size ≠ f.size → f ≠ .micros →
      s.tel.snap.others.lookup r.bit = some bs → bs.length = r.size →
      exec f.instr s = .next (s.appended bs)) ∧
    (∀ r, s.selectsRow f r → s.room r.size → r.size ≠ f.size → f = .micros →
      ∃ bs, bs.length = r.size ∧ exec f.instr s = .next (s.appended bs)) ∧
    (∀ (r : TelemetryRow) name bs, r.name = .other name →
      s.tel.snap.others.lookup r.bit = some bs → bs.length = r.size → s.tel.rowBytes r = bs)

/-- R261: `EMIT` asks a closed log and stops, or finds no effective mask and sends nothing, or builds one
State frame from one snapshot and hands it to one destination. -/
def Obligations.EmitSendsOneStateFrame : Prop :=
  ∀ (s : State) (ts mask : Word) (toLog : Bool), s.Inv →
    let s' := if toLog then s.record (.logIsOpen s.env.logOpen) else s
    let x := le4 s.params.typeState ++ le4 (s.effectiveMask mask) ++
      stateBody s.params ⟨s.effectiveMask mask, ts, s.env.live⟩
    (toLog = true → s.env.logOpen = false → exec (.emit ts mask toLog) s = .next s') ∧
    (toLog = false ∨ s.env.logOpen = true → s.effectiveMask mask = 0#32 →
      exec (.emit ts mask toLog) s = .next { s' with tel := { s.tel with eff := 0#32 } }) ∧
    (toLog = false ∨ s.env.logOpen = true → s.effectiveMask mask ≠ 0#32 →
      exec (.emit ts mask toLog) s = .next (deliver (if toLog then .log else .wire)
        (encodeFrame s.params x)
        { s'.record .snapshotTelemetry with
          tel := ⟨s.effectiveMask mask, ts, s.env.live⟩,
          wr := ⟨s.wr.buf.writeBytes 0 x, x.length, s.params.capLarge, false, .idle⟩ }))

/-- R263: `StateLen` is the sum of the selected rows' widths and the length of the State body; with the
default table it is 331 for all bits, with or without the undefined ones, and additive over disjoint
masks. Each row of the table contributes exactly its size. -/
def Obligations.StateLength : Prop :=
  (∀ (s : State) (mask : Word), exec (.stateLen mask) s = .next (s.setResult (.count
    ((s.params.telemetryFields.filter fun r => mask.getLsbD r.bit).map TelemetryRow.size).sum))) ∧
  (∀ (t : Telem) (r : TelemetryRow), (t.rowBytes r).length = r.size) ∧
  (∀ (p : Params) (t : Telem), (stateBody p t).length = p.stateLen t.eff) ∧
  (∀ (p : Params) (a b : Word), a &&& b = 0#32 →
    p.stateLen (a ||| b) = p.stateLen a + p.stateLen b) ∧
  Config.params.stateLen 0xFFFFFFFF#32 = 331 ∧ Config.params.stateLen 0x0FFFBFFF#32 = 331 ∧
  Config.params.stateLenMax = 331 ∧ ∀ p : Params, p.stateLen 0#32 = 0

/-! ### Reset -/

/-- R350: `RESET` gives the control registers their parameters, empties the framer and its queue, makes
the serialiser idle, and does nothing else: no transaction, and nothing of the collaborators changes. R30
gives the working registers and the buffers no value; that they keep what they hold is the model's choice
(notes/assumptions/5.md). -/
def Obligations.ResetRow : Prop :=
  ∀ s : State, exec .reset s = .next { s with
    ctl := ⟨s.params.resetTelemetryMask, s.params.resetSendInterval, s.params.resetLogInterval⟩,
    rx := ⟨[], [], false, false, []⟩,
    wr := { s.wr with tx := .idle } }

/-! ### Decoding and the machine -/

/-- Decoding an encoded well-formed instruction gives it back, for every instruction and every operand
value. The operand bytes of the OP rows and the code of a SUB row's procedure are the model's choice
(notes/assumptions/8.md); the words of the other rows are those of R80, R84, R88 and R78. -/
def Obligations.DecodeInvertsEncoder : Prop :=
  ∀ i : Instr, i.wf = true → Sys2Proof.decode (Sys2Proof.encode i).1 (Sys2Proof.encode i).2 = .ok i

/-- R78, R80, R84, R88, R99: a few words of the table and what they name. That a word with no defined bit
or an unknown tag, offered as an instruction, is refused, and the third byte of a SUB word, are the model's
choice (notes/assumptions/8.md); inside a frame such bits and tags are ignored (R79, R91). -/
def Obligations.TableWordsDecode : Prop :=
  Sys2Proof.decode .cmd [0x02#8, 0x00#8, 0x00#8, 0x00#8] = .ok .setEepromData ∧
  Sys2Proof.decode .cmd [0x01#8, 0x00#8, 0x00#8, 0x00#8] = .ok .reqResponse ∧
  Sys2Proof.decode .cmd [0x00#8, 0x00#8, 0x80#8, 0x00#8] = .ok .reqCardRecordingState ∧
  Sys2Proof.decode .cmd [0x00#8, 0x00#8, 0x00#8, 0x01#8] = .error .selectsNothing ∧
  Sys2Proof.decode .sub [0x00#8, 0x01#8, 0x00#8] = .ok (.deviceName .parse) ∧
  Sys2Proof.decode .state [0x00#8, 0x00#8, 0x00#8, 0x08#8] = .ok .loopCount ∧
  Sys2Proof.decode .state [0x00#8, 0x40#8, 0x00#8, 0x00#8] = .error .selectsNothing ∧
  Sys2Proof.decode .hdr [0x02#8, 0x00#8, 0x00#8, 0x00#8] = .ok .typeResponse ∧
  Sys2Proof.decode .hdr [0x03#8, 0x00#8, 0x00#8, 0x00#8] = .error .unknownTag

/-- A step runs the decoded instruction: when the offered bytes name an instruction, the step is `exec` of
it on the state with the stimulus taken and the step's trace started (R10, R314). The
rows of a word that selects several are offered one after the other (R99; notes/assumptions/11.md). -/
def Obligations.StepRunsTheDecodedInstruction : Prop :=
  ∀ (s : State) (f : Format) (bs : List Byte) (i : Instr) (more : List Instr)
    (rest : List Stimulus), s.params.wf = true → s.stimuli = .instr f bs :: rest →
    decodeAll f bs = .ok (i :: more) →
    Sys2Proof.decode f bs = .ok i ∧
      step s = exec i (s.advance (more.map offer ++ rest))

/-- The invariant holds at reset. The record sizes, the collaborators' records and the working registers
it speaks of are the model's choice at reset (notes/assumptions/1.md, 3.md, 30.md). -/
def Obligations.ResetHasInvariant : Prop := State.reset.Inv

/-- Every step keeps the invariant: buffers in canonical form, cursor and lengths inside their buffers
(R12, R22, R41, R42), no terminator in the frame being received (R21), records of `CFG_TOTAL` bytes
(R45), and the ack law of Command frames (R14). -/
def Obligations.StepKeepsInvariant : Prop :=
  ∀ s t : State, s.Inv → step s = .next t → t.Inv

/-- R9, R315: from every state of the invariant every host step completes: no fault, no refusal. -/
def Obligations.HostStepsComplete : Prop :=
  ∀ (i : Instr) (s : State), s.Inv → i.isHostStep = true → ∃ t, exec i s = .next t ∧ t.Inv
end

