-- ==== Sys2Proof/Laws/Bytes.lean ====
section
/-! SUPPORT. Lemmas about the little-endian byte sequences. -/

namespace Sys2Proof

@[simp] theorem leN_length (n v : Nat) : (leN n v).length = n := by
  induction n generalizing v with
  | zero => rfl
  | succ n ih => simp [leN, ih]

@[simp] theorem le2_length (v : Half) : (le2 v).length = 2 := leN_length ..

@[simp] theorem le4_length (v : Word) : (le4 v).length = 4 := leN_length ..

theorem fromLe_lt (bs : List Byte) : fromLe bs < 256 ^ bs.length := by
  induction bs with
  | nil => simp [fromLe]
  | cons b t ih =>
    have hb : b.toNat < 256 := b.isLt
    simp only [fromLe, List.length_cons, Nat.pow_succ]
    omega

theorem fromLe_leN (n v : Nat) : fromLe (leN n v) = v % 256 ^ n := by
  induction n generalizing v with
  | zero => simp [leN, fromLe, Nat.mod_one]
  | succ n ih =>
    have h : v % 256 ^ (n + 1) = v % 256 + 256 * (v / 256 % 256 ^ n) := by
      rw [Nat.pow_succ, Nat.mul_comm, Nat.mod_mul]
    simp only [leN, fromLe, ih, BitVec.toNat_ofNat, h]

theorem leN_fromLe (bs : List Byte) : leN bs.length (fromLe bs) = bs := by
  induction bs with
  | nil => rfl
  | cons b t ih =>
    have hb : b.toNat < 256 := b.isLt
    have hdiv : (b.toNat + 256 * fromLe t) / 256 = fromLe t := by omega
    have hhd : BitVec.ofNat 8 (b.toNat + 256 * fromLe t) = b := by
      apply BitVec.eq_of_toNat_eq
      simp only [BitVec.toNat_ofNat]
      omega
    simp only [List.length_cons, fromLe, leN, hdiv, hhd, ih]

theorem half_le2 (v : Half) : half (le2 v) = v := by
  apply BitVec.eq_of_toNat_eq
  have := v.isLt
  simp only [half, le2, fromLe_leN, BitVec.toNat_ofNat]
  omega

theorem word_le4 (v : Word) : word (le4 v) = v := by
  apply BitVec.eq_of_toNat_eq
  have := v.isLt
  simp only [word, le4, fromLe_leN, BitVec.toNat_ofNat]
  omega

theorem byte_singleton (b : Byte) : byte [b] = b := by
  apply BitVec.eq_of_toNat_eq
  have := b.isLt
  simp only [byte, fromLe, BitVec.toNat_ofNat]
  omega

end Sys2Proof
end

