-- ==== Sys2Proof/Laws/Memory.lean ====
section
/-! SUPPORT. Lemmas about byte spaces: what a read gives after a write, and that every operation keeps
the canonical form. -/

namespace Sys2Proof.Machine

theorem readCells_writeCells (a b : Nat) (v : Byte) (l : List Host.Cell) (lo : Nat)
    (h : cellsWf lo l = true) :
    readCells b (writeCells a v l) = if b = a then v else readCells b l := by
  induction l generalizing lo with
  | nil =>
    by_cases hv : v = 0#8 <;> by_cases hb : a = b
    · simp [writeCells, readCells, hv, hb]
    · simp [writeCells, readCells, hv]
    · simp [writeCells, readCells, hv, hb]
    · have hb' : b ≠ a := fun e => hb e.symm
      simp [writeCells, readCells, hv, hb, hb']
  | cons c t ih =>
    simp only [cellsWf, Bool.and_eq_true, decide_eq_true_eq, bne_iff_ne] at h
    obtain ⟨⟨hlo, hc⟩, ht⟩ := h
    have low : ∀ x, x ≤ c.1 → readCells x t = 0#8 := by
      intro x hx
      clear ih
      generalize hk : c.1 + 1 = k at ht
      have hx' : x < k := by omega
      clear hlo hc hx hk
      induction t generalizing k with
      | nil => rfl
      | cons d u ihu =>
        simp only [cellsWf, Bool.and_eq_true, decide_eq_true_eq, bne_iff_ne] at ht
        have : d.1 ≠ x := by omega
        simp only [readCells, this, if_false]
        exact ihu _ ht.2 (by omega)
    simp only [writeCells]
    by_cases h1 : a < c.1
    · have e := low a (by omega)
      by_cases hv : v = 0#8 <;> by_cases hb : b = a
      · subst hb; have : c.1 ≠ b := by omega
        simp [h1, hv, readCells, this, e]
      · simp [h1, hv, hb]
      · subst hb; simp [h1, hv, readCells]
      · have : a ≠ b := fun h => hb h.symm
        simp [h1, hv, hb, readCells, this]
    · by_cases h2 : c.1 = a
      · subst h2
        have e := low c.1 (le_refl _)
        by_cases hv : v = 0#8 <;> by_cases hb : b = c.1
        · subst hb; simp [hv, e]
        · have : c.1 ≠ b := fun h => hb h.symm
          simp [hv, hb, readCells, this]
        · subst hb; simp [hv, readCells]
        · have : c.1 ≠ b := fun h => hb h.symm
          simp [hv, hb, readCells, this]
      · simp only [h1, h2, if_false, readCells, ih _ ht]
        by_cases hcb : c.1 = b
        · have : b ≠ a := by rintro rfl; exact h2 hcb
          simp [hcb, this]
        · simp [hcb]

theorem cellsWf_mono {lo lo' : Nat} (l : List Host.Cell) (hle : lo' ≤ lo) (h : cellsWf lo l = true) :
    cellsWf lo' l = true := by
  cases l with
  | nil => rfl
  | cons c t =>
    simp only [cellsWf, Bool.and_eq_true, decide_eq_true_eq, bne_iff_ne] at h ⊢
    exact ⟨⟨by omega, h.1.2⟩, h.2⟩

theorem cellsWf_writeCells (a : Nat) (v : Byte) (l : List Host.Cell) (lo : Nat) (ha : lo ≤ a)
    (h : cellsWf lo l = true) : cellsWf lo (writeCells a v l) = true := by
  induction l generalizing lo with
  | nil => by_cases hv : v = 0#8 <;> simp [writeCells, hv, cellsWf, ha]
  | cons c t ih =>
    simp only [cellsWf, Bool.and_eq_true, decide_eq_true_eq, bne_iff_ne] at h
    obtain ⟨⟨hlo, hc⟩, ht⟩ := h
    simp only [writeCells]
    by_cases h1 : a < c.1
    · by_cases hv : v = 0#8
      · simp [h1, hv, cellsWf, hlo, hc, ht]
      · simp [h1, hv, cellsWf, ha, hc, ht, Nat.succ_le_of_lt h1]
    · by_cases h2 : c.1 = a
      · subst h2
        by_cases hv : v = 0#8
        · simpa [hv] using cellsWf_mono t (by omega) ht
        · simp [hv, cellsWf, ha, ht]
      · simp only [h1, h2, if_false, cellsWf, Bool.and_eq_true, decide_eq_true_eq, bne_iff_ne]
        exact ⟨⟨hlo, hc⟩, ih _ (by omega) ht⟩

/-- A byte reads as it was last written, and every other byte as before. -/
theorem Memory.read_write (m : Memory) (h : m.wf = true) (a b : Nat) (v : Byte) :
    (m.write a v).read b = if b = a then v else m.read b :=
  readCells_writeCells a b v m.cells 0 h

theorem Memory.wf_write (m : Memory) (h : m.wf = true) (a : Nat) (v : Byte) :
    (m.write a v).wf = true := cellsWf_writeCells a v m.cells 0 (Nat.zero_le _) h

/-- Every write keeps the canonical form. -/
theorem Memory.wf_writeBytes (bs : List Byte) (m : Memory) (a : Nat) (h : m.wf = true) :
    (m.writeBytes a bs).wf = true := by
  induction bs generalizing m a with
  | nil => exact h
  | cons v t ih => exact ih _ _ (m.wf_write h a v)

theorem Memory.wf_empty : Memory.empty.wf = true := rfl

/-- A byte sequence reads as it was written, and every byte outside it as before. -/
theorem Memory.read_writeBytes (bs : List Byte) (m : Memory) (h : m.wf = true) (a b : Nat) :
    (m.writeBytes a bs).read b =
      if a ≤ b ∧ b < a + bs.length then bs.getD (b - a) 0#8 else m.read b := by
  induction bs generalizing m a with
  | nil =>
    have : ¬ (a ≤ b ∧ b < a + ([] : List Byte).length) := by simp
    rw [if_neg this]; rfl
  | cons v t ih =>
    simp only [Memory.writeBytes, ih _ (m.wf_write h a v), m.read_write h, List.length_cons]
    rcases Nat.lt_trichotomy b a with hlt | rfl | hgt
    · have h1 : ¬ (a + 1 ≤ b ∧ b < a + 1 + t.length) := by omega
      have h2 : ¬ (a ≤ b ∧ b < a + (t.length + 1)) := by omega
      rw [if_neg h1, if_neg h2, if_neg (Nat.ne_of_lt hlt)]
    · have h1 : ¬ (b + 1 ≤ b ∧ b < b + 1 + t.length) := by omega
      rw [if_neg h1, if_pos rfl, if_pos ⟨le_refl _, by omega⟩, Nat.sub_self]; rfl
    · have hne : b ≠ a := by omega
      have hs : b - a = (b - (a + 1)) + 1 := by omega
      by_cases hin : b < a + 1 + t.length
      · have h1 : a + 1 ≤ b ∧ b < a + 1 + t.length := ⟨hgt, hin⟩
        have h2 : a ≤ b ∧ b < a + (t.length + 1) := by omega
        rw [if_pos h1, if_pos h2, hs, List.getD_cons_succ]
      · have h1 : ¬ (a + 1 ≤ b ∧ b < a + 1 + t.length) := by omega
        have h2 : ¬ (a ≤ b ∧ b < a + (t.length + 1)) := by omega
        rw [if_neg h1, if_neg h2, if_neg hne]

@[simp] theorem Memory.readBytes_length (m : Memory) (a n : Nat) : (m.readBytes a n).length = n := by
  induction n generalizing a with
  | zero => rfl
  | succ n ih => simp [Memory.readBytes, ih]

theorem Memory.readBytes_getD (m : Memory) (a n i : Nat) (h : i < n) :
    (m.readBytes a n).getD i 0#8 = m.read (a + i) := by
  induction n generalizing a i with
  | zero => omega
  | succ n ih =>
    cases i with
    | zero => simp [Memory.readBytes]
    | succ i =>
      simp only [Memory.readBytes, List.getD_cons_succ]
      rw [ih (a + 1) i (by omega)]
      congr 1; omega

theorem Memory.readBytes_add (m : Memory) (a j k : Nat) :
    m.readBytes a (j + k) = m.readBytes a j ++ m.readBytes (a + j) k := by
  induction j generalizing a with
  | zero => simp [Memory.readBytes]
  | succ j ih =>
    have : j + 1 + k = (j + k) + 1 := by omega
    rw [this, Memory.readBytes, Memory.readBytes, ih, List.cons_append]
    congr 3; omega

theorem Memory.readBytes_congr (m m' : Memory) (a n : Nat)
    (h : ∀ b, a ≤ b → b < a + n → m.read b = m'.read b) : m.readBytes a n = m'.readBytes a n := by
  induction n generalizing a with
  | zero => rfl
  | succ n ih =>
    rw [Memory.readBytes, Memory.readBytes, h a (le_refl _) (by omega),
      ih (a + 1) fun b h1 h2 => h b (by omega) (by omega)]

/-- What was written is what is read back. -/
theorem Memory.readBytes_writeBytes (m : Memory) (h : m.wf = true) (a : Nat) (bs : List Byte) :
    (m.writeBytes a bs).readBytes a bs.length = bs := by
  apply List.ext_getElem
  · simp
  · intro i h1 h2
    have e := Memory.readBytes_getD (m.writeBytes a bs) a bs.length i h2
    rw [List.getD_eq_getElem _ _ h1] at e
    rw [e, Memory.read_writeBytes bs m h, if_pos (by omega), Nat.add_sub_cancel_left,
      List.getD_eq_getElem _ _ h2]

theorem Memory.readBytes_writeBytes_disjoint (m : Memory) (h : m.wf = true) (a b n : Nat)
    (bs : List Byte) (hd : b + n ≤ a ∨ a + bs.length ≤ b) :
    (m.writeBytes a bs).readBytes b n = m.readBytes b n := by
  apply Memory.readBytes_congr
  intro x h1 h2
  rw [Memory.read_writeBytes bs m h, if_neg (by omega)]

theorem Memory.writeBytes_append (m : Memory) (a : Nat) (xs ys : List Byte) :
    m.writeBytes a (xs ++ ys) = (m.writeBytes a xs).writeBytes (a + xs.length) ys := by
  induction xs generalizing m a with
  | nil => rfl
  | cons x t ih =>
    simp only [List.cons_append, Memory.writeBytes, ih, List.length_cons]
    congr 1; omega

end Sys2Proof.Machine
end

