-- ==== Sys2Proof/Laws/State.lean ====
section
/-! SUPPORT. One lemma per field per named update of the state, each true by `rfl`, so that no proof
unfolds a record update. -/

namespace Sys2Proof.Machine

@[simp] theorem State.record_params (s : State) (e : Event) : (s.record e).params = s.params := rfl
@[simp] theorem State.record_ctl (s : State) (e : Event) : (s.record e).ctl = s.ctl := rfl
@[simp] theorem State.record_rx (s : State) (e : Event) : (s.record e).rx = s.rx := rfl
@[simp] theorem State.record_rd (s : State) (e : Event) : (s.record e).rd = s.rd := rfl
@[simp] theorem State.record_disp (s : State) (e : Event) : (s.record e).disp = s.disp := rfl
@[simp] theorem State.record_wr (s : State) (e : Event) : (s.record e).wr = s.wr := rfl
@[simp] theorem State.record_tel (s : State) (e : Event) : (s.record e).tel = s.tel := rfl
@[simp] theorem State.record_env (s : State) (e : Event) : (s.record e).env = s.env := rfl
@[simp] theorem State.record_wire (s : State) (e : Event) :
    (s.record e).out.wire = s.out.wire := rfl
@[simp] theorem State.record_log (s : State) (e : Event) : (s.record e).out.log = s.out.log := rfl
@[simp] theorem State.record_trace (s : State) (e : Event) :
    (s.record e).out.trace = s.out.trace ++ [e] := rfl
@[simp] theorem State.record_result (s : State) (e : Event) :
    (s.record e).out.result = s.out.result := rfl
@[simp] theorem State.record_stimuli (s : State) (e : Event) :
    (s.record e).stimuli = s.stimuli := rfl

@[simp] theorem State.raise_params (s : State) (c : ErrClass) (w : Site) :
    (s.raise c w).params = s.params := rfl
@[simp] theorem State.raise_ctl (s : State) (c : ErrClass) (w : Site) :
    (s.raise c w).ctl = s.ctl := rfl
@[simp] theorem State.raise_rx (s : State) (c : ErrClass) (w : Site) :
    (s.raise c w).rx = s.rx := rfl
@[simp] theorem State.raise_rd (s : State) (c : ErrClass) (w : Site) :
    (s.raise c w).rd = s.rd := rfl
@[simp] theorem State.raise_disp (s : State) (c : ErrClass) (w : Site) :
    (s.raise c w).disp = s.disp := rfl
@[simp] theorem State.raise_wr (s : State) (c : ErrClass) (w : Site) :
    (s.raise c w).wr = s.wr := rfl
@[simp] theorem State.raise_tel (s : State) (c : ErrClass) (w : Site) :
    (s.raise c w).tel = s.tel := rfl
@[simp] theorem State.raise_env (s : State) (c : ErrClass) (w : Site) :
    (s.raise c w).env = s.env := rfl
@[simp] theorem State.raise_wire (s : State) (c : ErrClass) (w : Site) :
    (s.raise c w).out.wire = s.out.wire := rfl
@[simp] theorem State.raise_log (s : State) (c : ErrClass) (w : Site) :
    (s.raise c w).out.log = s.out.log := rfl
@[simp] theorem State.raise_trace (s : State) (c : ErrClass) (w : Site) :
    (s.raise c w).out.trace = s.out.trace ++ [.raised c w] := rfl
@[simp] theorem State.raise_result (s : State) (c : ErrClass) (w : Site) :
    (s.raise c w).out.result = s.out.result := rfl
@[simp] theorem State.raise_stimuli (s : State) (c : ErrClass) (w : Site) :
    (s.raise c w).stimuli = s.stimuli := rfl

@[simp] theorem State.setResult_params (s : State) (r : OpResult) :
    (s.setResult r).params = s.params := rfl
@[simp] theorem State.setResult_ctl (s : State) (r : OpResult) : (s.setResult r).ctl = s.ctl := rfl
@[simp] theorem State.setResult_rx (s : State) (r : OpResult) : (s.setResult r).rx = s.rx := rfl
@[simp] theorem State.setResult_rd (s : State) (r : OpResult) : (s.setResult r).rd = s.rd := rfl
@[simp] theorem State.setResult_disp (s : State) (r : OpResult) :
    (s.setResult r).disp = s.disp := rfl
@[simp] theorem State.setResult_wr (s : State) (r : OpResult) : (s.setResult r).wr = s.wr := rfl
@[simp] theorem State.setResult_tel (s : State) (r : OpResult) : (s.setResult r).tel = s.tel := rfl
@[simp] theorem State.setResult_env (s : State) (r : OpResult) : (s.setResult r).env = s.env := rfl
@[simp] theorem State.setResult_wire (s : State) (r : OpResult) :
    (s.setResult r).out.wire = s.out.wire := rfl
@[simp] theorem State.setResult_log (s : State) (r : OpResult) :
    (s.setResult r).out.log = s.out.log := rfl
@[simp] theorem State.setResult_trace (s : State) (r : OpResult) :
    (s.setResult r).out.trace = s.out.trace := rfl
@[simp] theorem State.setResult_result (s : State) (r : OpResult) :
    (s.setResult r).out.result = r := rfl
@[simp] theorem State.setResult_stimuli (s : State) (r : OpResult) :
    (s.setResult r).stimuli = s.stimuli := rfl

@[simp] theorem State.ackOp_params (s : State) (op : CmdOp) : (s.ackOp op).params = s.params := rfl
@[simp] theorem State.ackOp_ctl (s : State) (op : CmdOp) : (s.ackOp op).ctl = s.ctl := rfl
@[simp] theorem State.ackOp_rx (s : State) (op : CmdOp) : (s.ackOp op).rx = s.rx := rfl
@[simp] theorem State.ackOp_rd (s : State) (op : CmdOp) : (s.ackOp op).rd = s.rd := rfl
@[simp] theorem State.ackOp_type (s : State) (op : CmdOp) :
    (s.ackOp op).disp.type = s.disp.type := rfl
@[simp] theorem State.ackOp_m (s : State) (op : CmdOp) : (s.ackOp op).disp.m = s.disp.m := rfl
@[simp] theorem State.ackOp_ack (s : State) (op : CmdOp) :
    (s.ackOp op).disp.ack = s.disp.ack ||| s.params.cmdMask op := rfl
@[simp] theorem State.ackOp_seq (s : State) (op : CmdOp) : (s.ackOp op).disp.seq = s.disp.seq := rfl
@[simp] theorem State.ackOp_sub (s : State) (op : CmdOp) : (s.ackOp op).disp.sub = s.disp.sub := rfl
@[simp] theorem State.ackOp_ledsub (s : State) (op : CmdOp) :
    (s.ackOp op).disp.ledsub = s.disp.ledsub := rfl
@[simp] theorem State.ackOp_ok (s : State) (op : CmdOp) : (s.ackOp op).disp.ok = s.disp.ok := rfl
@[simp] theorem State.ackOp_wcfg (s : State) (op : CmdOp) :
    (s.ackOp op).disp.wcfg = s.disp.wcfg := rfl
@[simp] theorem State.ackOp_record (s : State) (op : CmdOp) :
    (s.ackOp op).disp.record = s.disp.record := rfl
@[simp] theorem State.ackOp_wr (s : State) (op : CmdOp) : (s.ackOp op).wr = s.wr := rfl
@[simp] theorem State.ackOp_tel (s : State) (op : CmdOp) : (s.ackOp op).tel = s.tel := rfl
@[simp] theorem State.ackOp_env (s : State) (op : CmdOp) : (s.ackOp op).env = s.env := rfl
@[simp] theorem State.ackOp_out (s : State) (op : CmdOp) : (s.ackOp op).out = s.out := rfl
@[simp] theorem State.ackOp_stimuli (s : State) (op : CmdOp) :
    (s.ackOp op).stimuli = s.stimuli := rfl

@[simp] theorem State.setOk_params (s : State) (b : Bool) : (s.setOk b).params = s.params := rfl
@[simp] theorem State.setOk_ctl (s : State) (b : Bool) : (s.setOk b).ctl = s.ctl := rfl
@[simp] theorem State.setOk_rx (s : State) (b : Bool) : (s.setOk b).rx = s.rx := rfl
@[simp] theorem State.setOk_rd (s : State) (b : Bool) : (s.setOk b).rd = s.rd := rfl
@[simp] theorem State.setOk_type (s : State) (b : Bool) : (s.setOk b).disp.type = s.disp.type := rfl
@[simp] theorem State.setOk_m (s : State) (b : Bool) : (s.setOk b).disp.m = s.disp.m := rfl
@[simp] theorem State.setOk_ack (s : State) (b : Bool) : (s.setOk b).disp.ack = s.disp.ack := rfl
@[simp] theorem State.setOk_seq (s : State) (b : Bool) : (s.setOk b).disp.seq = s.disp.seq := rfl
@[simp] theorem State.setOk_sub (s : State) (b : Bool) : (s.setOk b).disp.sub = s.disp.sub := rfl
@[simp] theorem State.setOk_ledsub (s : State) (b : Bool) :
    (s.setOk b).disp.ledsub = s.disp.ledsub := rfl
@[simp] theorem State.setOk_ok (s : State) (b : Bool) : (s.setOk b).disp.ok = b := rfl
@[simp] theorem State.setOk_wcfg (s : State) (b : Bool) : (s.setOk b).disp.wcfg = s.disp.wcfg := rfl
@[simp] theorem State.setOk_record (s : State) (b : Bool) :
    (s.setOk b).disp.record = s.disp.record := rfl
@[simp] theorem State.setOk_wr (s : State) (b : Bool) : (s.setOk b).wr = s.wr := rfl
@[simp] theorem State.setOk_tel (s : State) (b : Bool) : (s.setOk b).tel = s.tel := rfl
@[simp] theorem State.setOk_env (s : State) (b : Bool) : (s.setOk b).env = s.env := rfl
@[simp] theorem State.setOk_out (s : State) (b : Bool) : (s.setOk b).out = s.out := rfl
@[simp] theorem State.setOk_stimuli (s : State) (b : Bool) : (s.setOk b).stimuli = s.stimuli := rfl

@[simp] theorem State.setSub_params (s : State) (v : Half) : (s.setSub v).params = s.params := rfl
@[simp] theorem State.setSub_ctl (s : State) (v : Half) : (s.setSub v).ctl = s.ctl := rfl
@[simp] theorem State.setSub_rx (s : State) (v : Half) : (s.setSub v).rx = s.rx := rfl
@[simp] theorem State.setSub_rd (s : State) (v : Half) : (s.setSub v).rd = s.rd := rfl
@[simp] theorem State.setSub_type (s : State) (v : Half) :
    (s.setSub v).disp.type = s.disp.type := rfl
@[simp] theorem State.setSub_m (s : State) (v : Half) : (s.setSub v).disp.m = s.disp.m := rfl
@[simp] theorem State.setSub_ack (s : State) (v : Half) : (s.setSub v).disp.ack = s.disp.ack := rfl
@[simp] theorem State.setSub_seq (s : State) (v : Half) : (s.setSub v).disp.seq = s.disp.seq := rfl
@[simp] theorem State.setSub_sub (s : State) (v : Half) : (s.setSub v).disp.sub = v := rfl
@[simp] theorem State.setSub_ledsub (s : State) (v : Half) :
    (s.setSub v).disp.ledsub = s.disp.ledsub := rfl
@[simp] theorem State.setSub_ok (s : State) (v : Half) : (s.setSub v).disp.ok = s.disp.ok := rfl
@[simp] theorem State.setSub_wcfg (s : State) (v : Half) :
    (s.setSub v).disp.wcfg = s.disp.wcfg := rfl
@[simp] theorem State.setSub_record (s : State) (v : Half) :
    (s.setSub v).disp.record = s.disp.record := rfl
@[simp] theorem State.setSub_wr (s : State) (v : Half) : (s.setSub v).wr = s.wr := rfl
@[simp] theorem State.setSub_tel (s : State) (v : Half) : (s.setSub v).tel = s.tel := rfl
@[simp] theorem State.setSub_env (s : State) (v : Half) : (s.setSub v).env = s.env := rfl
@[simp] theorem State.setSub_out (s : State) (v : Half) : (s.setSub v).out = s.out := rfl
@[simp] theorem State.setSub_stimuli (s : State) (v : Half) :
    (s.setSub v).stimuli = s.stimuli := rfl

@[simp] theorem State.setLedsub_params (s : State) (v : Half) :
    (s.setLedsub v).params = s.params := rfl
@[simp] theorem State.setLedsub_ctl (s : State) (v : Half) : (s.setLedsub v).ctl = s.ctl := rfl
@[simp] theorem State.setLedsub_rx (s : State) (v : Half) : (s.setLedsub v).rx = s.rx := rfl
@[simp] theorem State.setLedsub_rd (s : State) (v : Half) : (s.setLedsub v).rd = s.rd := rfl
@[simp] theorem State.setLedsub_type (s : State) (v : Half) :
    (s.setLedsub v).disp.type = s.disp.type := rfl
@[simp] theorem State.setLedsub_m (s : State) (v : Half) : (s.setLedsub v).disp.m = s.disp.m := rfl
@[simp] theorem State.setLedsub_ack (s : State) (v : Half) :
    (s.setLedsub v).disp.ack = s.disp.ack := rfl
@[simp] theorem State.setLedsub_seq (s : State) (v : Half) :
    (s.setLedsub v).disp.seq = s.disp.seq := rfl
@[simp] theorem State.setLedsub_sub (s : State) (v : Half) :
    (s.setLedsub v).disp.sub = s.disp.sub := rfl
@[simp] theorem State.setLedsub_ledsub (s : State) (v : Half) :
    (s.setLedsub v).disp.ledsub = v := rfl
@[simp] theorem State.setLedsub_ok (s : State) (v : Half) :
    (s.setLedsub v).disp.ok = s.disp.ok := rfl
@[simp] theorem State.setLedsub_wcfg (s : State) (v : Half) :
    (s.setLedsub v).disp.wcfg = s.disp.wcfg := rfl
@[simp] theorem State.setLedsub_record (s : State) (v : Half) :
    (s.setLedsub v).disp.record = s.disp.record := rfl
@[simp] theorem State.setLedsub_wr (s : State) (v : Half) : (s.setLedsub v).wr = s.wr := rfl
@[simp] theorem State.setLedsub_tel (s : State) (v : Half) : (s.setLedsub v).tel = s.tel := rfl
@[simp] theorem State.setLedsub_env (s : State) (v : Half) : (s.setLedsub v).env = s.env := rfl
@[simp] theorem State.setLedsub_out (s : State) (v : Half) : (s.setLedsub v).out = s.out := rfl
@[simp] theorem State.setLedsub_stimuli (s : State) (v : Half) :
    (s.setLedsub v).stimuli = s.stimuli := rfl

@[simp] theorem State.setRecord_params (s : State) (r : List Byte) :
    (s.setRecord r).params = s.params := rfl
@[simp] theorem State.setRecord_ctl (s : State) (r : List Byte) : (s.setRecord r).ctl = s.ctl := rfl
@[simp] theorem State.setRecord_rx (s : State) (r : List Byte) : (s.setRecord r).rx = s.rx := rfl
@[simp] theorem State.setRecord_rd (s : State) (r : List Byte) : (s.setRecord r).rd = s.rd := rfl
@[simp] theorem State.setRecord_type (s : State) (r : List Byte) :
    (s.setRecord r).disp.type = s.disp.type := rfl
@[simp] theorem State.setRecord_m (s : State) (r : List Byte) :
    (s.setRecord r).disp.m = s.disp.m := rfl
@[simp] theorem State.setRecord_ack (s : State) (r : List Byte) :
    (s.setRecord r).disp.ack = s.disp.ack := rfl
@[simp] theorem State.setRecord_seq (s : State) (r : List Byte) :
    (s.setRecord r).disp.seq = s.disp.seq := rfl
@[simp] theorem State.setRecord_sub (s : State) (r : List Byte) :
    (s.setRecord r).disp.sub = s.disp.sub := rfl
@[simp] theorem State.setRecord_ledsub (s : State) (r : List Byte) :
    (s.setRecord r).disp.ledsub = s.disp.ledsub := rfl
@[simp] theorem State.setRecord_ok (s : State) (r : List Byte) :
    (s.setRecord r).disp.ok = s.disp.ok := rfl
@[simp] theorem State.setRecord_wcfg (s : State) (r : List Byte) :
    (s.setRecord r).disp.wcfg = s.disp.wcfg := rfl
@[simp] theorem State.setRecord_record (s : State) (r : List Byte) :
    (s.setRecord r).disp.record = r := rfl
@[simp] theorem State.setRecord_wr (s : State) (r : List Byte) : (s.setRecord r).wr = s.wr := rfl
@[simp] theorem State.setRecord_tel (s : State) (r : List Byte) : (s.setRecord r).tel = s.tel := rfl
@[simp] theorem State.setRecord_env (s : State) (r : List Byte) : (s.setRecord r).env = s.env := rfl
@[simp] theorem State.setRecord_out (s : State) (r : List Byte) : (s.setRecord r).out = s.out := rfl
@[simp] theorem State.setRecord_stimuli (s : State) (r : List Byte) :
    (s.setRecord r).stimuli = s.stimuli := rfl

@[simp] theorem State.setSeq_params (s : State) (n : Fin 25) : (s.setSeq n).params = s.params := rfl
@[simp] theorem State.setSeq_ctl (s : State) (n : Fin 25) : (s.setSeq n).ctl = s.ctl := rfl
@[simp] theorem State.setSeq_rx (s : State) (n : Fin 25) : (s.setSeq n).rx = s.rx := rfl
@[simp] theorem State.setSeq_rd (s : State) (n : Fin 25) : (s.setSeq n).rd = s.rd := rfl
@[simp] theorem State.setSeq_type (s : State) (n : Fin 25) :
    (s.setSeq n).disp.type = s.disp.type := rfl
@[simp] theorem State.setSeq_m (s : State) (n : Fin 25) : (s.setSeq n).disp.m = s.disp.m := rfl
@[simp] theorem State.setSeq_ack (s : State) (n : Fin 25) :
    (s.setSeq n).disp.ack = s.disp.ack := rfl
@[simp] theorem State.setSeq_seq (s : State) (n : Fin 25) : (s.setSeq n).disp.seq = n := rfl
@[simp] theorem State.setSeq_sub (s : State) (n : Fin 25) :
    (s.setSeq n).disp.sub = s.disp.sub := rfl
@[simp] theorem State.setSeq_ledsub (s : State) (n : Fin 25) :
    (s.setSeq n).disp.ledsub = s.disp.ledsub := rfl
@[simp] theorem State.setSeq_ok (s : State) (n : Fin 25) : (s.setSeq n).disp.ok = s.disp.ok := rfl
@[simp] theorem State.setSeq_wcfg (s : State) (n : Fin 25) :
    (s.setSeq n).disp.wcfg = s.disp.wcfg := rfl
@[simp] theorem State.setSeq_record (s : State) (n : Fin 25) :
    (s.setSeq n).disp.record = s.disp.record := rfl
@[simp] theorem State.setSeq_wr (s : State) (n : Fin 25) : (s.setSeq n).wr = s.wr := rfl
@[simp] theorem State.setSeq_tel (s : State) (n : Fin 25) : (s.setSeq n).tel = s.tel := rfl
@[simp] theorem State.setSeq_env (s : State) (n : Fin 25) : (s.setSeq n).env = s.env := rfl
@[simp] theorem State.setSeq_out (s : State) (n : Fin 25) : (s.setSeq n).out = s.out := rfl
@[simp] theorem State.setSeq_stimuli (s : State) (n : Fin 25) :
    (s.setSeq n).stimuli = s.stimuli := rfl

@[simp] theorem State.advance_params (s : State) (rest : List Stimulus) :
    (s.advance rest).params = s.params := rfl
@[simp] theorem State.advance_ctl (s : State) (rest : List Stimulus) :
    (s.advance rest).ctl = s.ctl := rfl
@[simp] theorem State.advance_rx (s : State) (rest : List Stimulus) :
    (s.advance rest).rx = s.rx := rfl
@[simp] theorem State.advance_rd (s : State) (rest : List Stimulus) :
    (s.advance rest).rd = s.rd := rfl
@[simp] theorem State.advance_disp (s : State) (rest : List Stimulus) :
    (s.advance rest).disp = s.disp := rfl
@[simp] theorem State.advance_wr (s : State) (rest : List Stimulus) :
    (s.advance rest).wr = s.wr := rfl
@[simp] theorem State.advance_tel (s : State) (rest : List Stimulus) :
    (s.advance rest).tel = s.tel := rfl
@[simp] theorem State.advance_env (s : State) (rest : List Stimulus) :
    (s.advance rest).env = s.env := rfl
@[simp] theorem State.advance_wire (s : State) (rest : List Stimulus) :
    (s.advance rest).out.wire = s.out.wire := rfl
@[simp] theorem State.advance_log (s : State) (rest : List Stimulus) :
    (s.advance rest).out.log = s.out.log := rfl
@[simp] theorem State.advance_trace (s : State) (rest : List Stimulus) :
    (s.advance rest).out.trace = [] := rfl
@[simp] theorem State.advance_result (s : State) (rest : List Stimulus) :
    (s.advance rest).out.result = s.out.result := rfl

@[simp] theorem State.advance_stimuli (s : State) (rest : List Stimulus) :
    (s.advance rest).stimuli = rest := rfl

@[simp] theorem State.consumed_params (s : State) (n : Nat) :
    (s.consumed n).params = s.params := rfl
@[simp] theorem State.consumed_ctl (s : State) (n : Nat) : (s.consumed n).ctl = s.ctl := rfl
@[simp] theorem State.consumed_rx (s : State) (n : Nat) : (s.consumed n).rx = s.rx := rfl
@[simp] theorem State.consumed_rd_buf (s : State) (n : Nat) :
    (s.consumed n).rd.buf = s.rd.buf := rfl
@[simp] theorem State.consumed_rd_len (s : State) (n : Nat) :
    (s.consumed n).rd.len = s.rd.len := rfl
@[simp] theorem State.consumed_rd_pos (s : State) (n : Nat) :
    (s.consumed n).rd.pos = s.rd.pos + n := rfl
@[simp] theorem State.consumed_disp (s : State) (n : Nat) : (s.consumed n).disp = s.disp := rfl
@[simp] theorem State.consumed_wr (s : State) (n : Nat) : (s.consumed n).wr = s.wr := rfl
@[simp] theorem State.consumed_tel (s : State) (n : Nat) : (s.consumed n).tel = s.tel := rfl
@[simp] theorem State.consumed_env (s : State) (n : Nat) : (s.consumed n).env = s.env := rfl
@[simp] theorem State.consumed_out (s : State) (n : Nat) : (s.consumed n).out = s.out := rfl
@[simp] theorem State.consumed_stimuli (s : State) (n : Nat) :
    (s.consumed n).stimuli = s.stimuli := rfl

@[simp] theorem State.appended_params (s : State) (bs : List Byte) :
    (s.appended bs).params = s.params := rfl
@[simp] theorem State.appended_ctl (s : State) (bs : List Byte) : (s.appended bs).ctl = s.ctl := rfl
@[simp] theorem State.appended_rx (s : State) (bs : List Byte) : (s.appended bs).rx = s.rx := rfl
@[simp] theorem State.appended_rd (s : State) (bs : List Byte) : (s.appended bs).rd = s.rd := rfl
@[simp] theorem State.appended_disp (s : State) (bs : List Byte) :
    (s.appended bs).disp = s.disp := rfl
@[simp] theorem State.appended_wr_buf (s : State) (bs : List Byte) :
    (s.appended bs).wr.buf = s.wr.buf.writeBytes s.wr.len bs := rfl
@[simp] theorem State.appended_wr_len (s : State) (bs : List Byte) :
    (s.appended bs).wr.len = s.wr.len + bs.length := rfl
@[simp] theorem State.appended_wr_cap (s : State) (bs : List Byte) :
    (s.appended bs).wr.cap = s.wr.cap := rfl
@[simp] theorem State.appended_wr_ovf (s : State) (bs : List Byte) :
    (s.appended bs).wr.ovf = s.wr.ovf := rfl
@[simp] theorem State.appended_wr_tx (s : State) (bs : List Byte) :
    (s.appended bs).wr.tx = s.wr.tx := rfl
@[simp] theorem State.appended_tel (s : State) (bs : List Byte) : (s.appended bs).tel = s.tel := rfl
@[simp] theorem State.appended_env (s : State) (bs : List Byte) : (s.appended bs).env = s.env := rfl
@[simp] theorem State.appended_out (s : State) (bs : List Byte) : (s.appended bs).out = s.out := rfl
@[simp] theorem State.appended_stimuli (s : State) (bs : List Byte) :
    (s.appended bs).stimuli = s.stimuli := rfl

@[simp] theorem State.wroteWcfg_params (s : State) (off : Nat) (bs : List Byte) :
    (s.wroteWcfg off bs).params = s.params := rfl
@[simp] theorem State.wroteWcfg_ctl (s : State) (off : Nat) (bs : List Byte) :
    (s.wroteWcfg off bs).ctl = s.ctl := rfl
@[simp] theorem State.wroteWcfg_rx (s : State) (off : Nat) (bs : List Byte) :
    (s.wroteWcfg off bs).rx = s.rx := rfl
@[simp] theorem State.wroteWcfg_rd (s : State) (off : Nat) (bs : List Byte) :
    (s.wroteWcfg off bs).rd = s.rd := rfl
@[simp] theorem State.wroteWcfg_type (s : State) (off : Nat) (bs : List Byte) :
    (s.wroteWcfg off bs).disp.type = s.disp.type := rfl
@[simp] theorem State.wroteWcfg_m (s : State) (off : Nat) (bs : List Byte) :
    (s.wroteWcfg off bs).disp.m = s.disp.m := rfl
@[simp] theorem State.wroteWcfg_ack (s : State) (off : Nat) (bs : List Byte) :
    (s.wroteWcfg off bs).disp.ack = s.disp.ack := rfl
@[simp] theorem State.wroteWcfg_seq (s : State) (off : Nat) (bs : List Byte) :
    (s.wroteWcfg off bs).disp.seq = s.disp.seq := rfl
@[simp] theorem State.wroteWcfg_sub (s : State) (off : Nat) (bs : List Byte) :
    (s.wroteWcfg off bs).disp.sub = s.disp.sub := rfl
@[simp] theorem State.wroteWcfg_ledsub (s : State) (off : Nat) (bs : List Byte) :
    (s.wroteWcfg off bs).disp.ledsub = s.disp.ledsub := rfl
@[simp] theorem State.wroteWcfg_ok (s : State) (off : Nat) (bs : List Byte) :
    (s.wroteWcfg off bs).disp.ok = s.disp.ok := rfl
@[simp] theorem State.wroteWcfg_wcfg (s : State) (off : Nat) (bs : List Byte) :
    (s.wroteWcfg off bs).disp.wcfg = s.disp.wcfg.writeBytes off bs := rfl
@[simp] theorem State.wroteWcfg_record (s : State) (off : Nat) (bs : List Byte) :
    (s.wroteWcfg off bs).disp.record = s.disp.record := rfl
@[simp] theorem State.wroteWcfg_wr (s : State) (off : Nat) (bs : List Byte) :
    (s.wroteWcfg off bs).wr = s.wr := rfl
@[simp] theorem State.wroteWcfg_tel (s : State) (off : Nat) (bs : List Byte) :
    (s.wroteWcfg off bs).tel = s.tel := rfl
@[simp] theorem State.wroteWcfg_env (s : State) (off : Nat) (bs : List Byte) :
    (s.wroteWcfg off bs).env = s.env := rfl
@[simp] theorem State.wroteWcfg_out (s : State) (off : Nat) (bs : List Byte) :
    (s.wroteWcfg off bs).out = s.out := rfl
@[simp] theorem State.wroteWcfg_stimuli (s : State) (off : Nat) (bs : List Byte) :
    (s.wroteWcfg off bs).stimuli = s.stimuli := rfl

@[simp] theorem applyConfig_params (s : State) (r : List Byte) :
    (applyConfig r s).params = s.params := rfl
@[simp] theorem applyConfig_ctl (s : State) (r : List Byte) : (applyConfig r s).ctl = s.ctl := rfl
@[simp] theorem applyConfig_rx (s : State) (r : List Byte) : (applyConfig r s).rx = s.rx := rfl
@[simp] theorem applyConfig_rd (s : State) (r : List Byte) : (applyConfig r s).rd = s.rd := rfl
@[simp] theorem applyConfig_disp (s : State) (r : List Byte) :
    (applyConfig r s).disp = s.disp := rfl
@[simp] theorem applyConfig_wr (s : State) (r : List Byte) : (applyConfig r s).wr = s.wr := rfl
@[simp] theorem applyConfig_tel (s : State) (r : List Byte) : (applyConfig r s).tel = s.tel := rfl
@[simp] theorem applyConfig_persist (s : State) (r : List Byte) :
    (applyConfig r s).env.persist = s.env.persist := rfl
@[simp] theorem applyConfig_liveCfg (s : State) (r : List Byte) :
    (applyConfig r s).env.liveCfg = r := rfl
@[simp] theorem applyConfig_live (s : State) (r : List Byte) :
    (applyConfig r s).env.live = s.env.live := rfl
@[simp] theorem applyConfig_logOpen (s : State) (r : List Byte) :
    (applyConfig r s).env.logOpen = s.env.logOpen := rfl
@[simp] theorem applyConfig_logLocked (s : State) (r : List Byte) :
    (applyConfig r s).env.logLocked = s.env.logLocked := rfl
@[simp] theorem applyConfig_lockSet (s : State) (r : List Byte) :
    (applyConfig r s).env.lockSet = s.env.lockSet := rfl
@[simp] theorem applyConfig_storeAnswers (s : State) (r : List Byte) :
    (applyConfig r s).env.storeAnswers = s.env.storeAnswers := rfl
@[simp] theorem applyConfig_logAnswers (s : State) (r : List Byte) :
    (applyConfig r s).env.logAnswers = s.env.logAnswers := rfl
@[simp] theorem applyConfig_wire (s : State) (r : List Byte) :
    (applyConfig r s).out.wire = s.out.wire := rfl
@[simp] theorem applyConfig_log (s : State) (r : List Byte) :
    (applyConfig r s).out.log = s.out.log := rfl
@[simp] theorem applyConfig_trace (s : State) (r : List Byte) :
    (applyConfig r s).out.trace = s.out.trace ++ [.applyConfig r] := rfl
@[simp] theorem applyConfig_result (s : State) (r : List Byte) :
    (applyConfig r s).out.result = s.out.result := rfl
@[simp] theorem applyConfig_stimuli (s : State) (r : List Byte) :
    (applyConfig r s).stimuli = s.stimuli := rfl

@[simp] theorem storageRead_fst_params (s : State) : ((storageRead s).1).params = s.params := rfl
@[simp] theorem storageRead_fst_ctl (s : State) : ((storageRead s).1).ctl = s.ctl := rfl
@[simp] theorem storageRead_fst_rx (s : State) : ((storageRead s).1).rx = s.rx := rfl
@[simp] theorem storageRead_fst_rd (s : State) : ((storageRead s).1).rd = s.rd := rfl
@[simp] theorem storageRead_fst_disp (s : State) : ((storageRead s).1).disp = s.disp := rfl
@[simp] theorem storageRead_fst_wr (s : State) : ((storageRead s).1).wr = s.wr := rfl
@[simp] theorem storageRead_fst_tel (s : State) : ((storageRead s).1).tel = s.tel := rfl
@[simp] theorem storageRead_fst_env (s : State) : ((storageRead s).1).env = s.env := rfl
@[simp] theorem storageRead_fst_wire (s : State) : ((storageRead s).1).out.wire = s.out.wire := rfl
@[simp] theorem storageRead_fst_log (s : State) : ((storageRead s).1).out.log = s.out.log := rfl
@[simp] theorem storageRead_fst_trace (s : State) :
    ((storageRead s).1).out.trace = s.out.trace ++ [.storageRead] := rfl
@[simp] theorem storageRead_fst_result (s : State) :
    ((storageRead s).1).out.result = s.out.result := rfl
@[simp] theorem storageRead_fst_stimuli (s : State) : ((storageRead s).1).stimuli = s.stimuli := rfl

@[simp] theorem storageRead_snd (s : State) : (storageRead s).2 = s.env.persist := rfl

@[simp] theorem storageWrite_fst_params (s : State) (r : List Byte) :
    ((storageWrite r s).1).params = s.params := rfl
@[simp] theorem storageWrite_fst_ctl (s : State) (r : List Byte) :
    ((storageWrite r s).1).ctl = s.ctl := rfl
@[simp] theorem storageWrite_fst_rx (s : State) (r : List Byte) :
    ((storageWrite r s).1).rx = s.rx := rfl
@[simp] theorem storageWrite_fst_rd (s : State) (r : List Byte) :
    ((storageWrite r s).1).rd = s.rd := rfl
@[simp] theorem storageWrite_fst_disp (s : State) (r : List Byte) :
    ((storageWrite r s).1).disp = s.disp := rfl
@[simp] theorem storageWrite_fst_wr (s : State) (r : List Byte) :
    ((storageWrite r s).1).wr = s.wr := rfl
@[simp] theorem storageWrite_fst_tel (s : State) (r : List Byte) :
    ((storageWrite r s).1).tel = s.tel := rfl
@[simp] theorem storageWrite_fst_persist (s : State) (r : List Byte) :
    ((storageWrite r s).1).env.persist = s.env.storeAnswer.after s.env.persist r := rfl
@[simp] theorem storageWrite_fst_liveCfg (s : State) (r : List Byte) :
    ((storageWrite r s).1).env.liveCfg = s.env.liveCfg := rfl
@[simp] theorem storageWrite_fst_live (s : State) (r : List Byte) :
    ((storageWrite r s).1).env.live = s.env.live := rfl
@[simp] theorem storageWrite_fst_logOpen (s : State) (r : List Byte) :
    ((storageWrite r s).1).env.logOpen = s.env.logOpen := rfl
@[simp] theorem storageWrite_fst_logLocked (s : State) (r : List Byte) :
    ((storageWrite r s).1).env.logLocked = s.env.logLocked := rfl
@[simp] theorem storageWrite_fst_lockSet (s : State) (r : List Byte) :
    ((storageWrite r s).1).env.lockSet = s.env.lockSet := rfl
@[simp] theorem storageWrite_fst_storeAnswers (s : State) (r : List Byte) :
    ((storageWrite r s).1).env.storeAnswers = s.env.storeAnswers.tail := rfl
@[simp] theorem storageWrite_fst_logAnswers (s : State) (r : List Byte) :
    ((storageWrite r s).1).env.logAnswers = s.env.logAnswers := rfl
@[simp] theorem storageWrite_fst_wire (s : State) (r : List Byte) :
    ((storageWrite r s).1).out.wire = s.out.wire := rfl
@[simp] theorem storageWrite_fst_log (s : State) (r : List Byte) :
    ((storageWrite r s).1).out.log = s.out.log := rfl
@[simp] theorem storageWrite_fst_trace (s : State) (r : List Byte) :
    ((storageWrite r s).1).out.trace = s.out.trace ++ [.storageWrite r s.env.storeAnswer.isOk] := rfl
@[simp] theorem storageWrite_fst_result (s : State) (r : List Byte) :
    ((storageWrite r s).1).out.result = s.out.result := rfl
@[simp] theorem storageWrite_fst_stimuli (s : State) (r : List Byte) :
    ((storageWrite r s).1).stimuli = s.stimuli := rfl

@[simp] theorem storageWrite_snd (s : State) (r : List Byte) :
    (storageWrite r s).2 = s.env.storeAnswer.isOk := rfl

@[simp] theorem readConfig_fst_params (s : State) : ((readConfig s).1).params = s.params := rfl
@[simp] theorem readConfig_fst_ctl (s : State) : ((readConfig s).1).ctl = s.ctl := rfl
@[simp] theorem readConfig_fst_rx (s : State) : ((readConfig s).1).rx = s.rx := rfl
@[simp] theorem readConfig_fst_rd (s : State) : ((readConfig s).1).rd = s.rd := rfl
@[simp] theorem readConfig_fst_disp (s : State) : ((readConfig s).1).disp = s.disp := rfl
@[simp] theorem readConfig_fst_wr (s : State) : ((readConfig s).1).wr = s.wr := rfl
@[simp] theorem readConfig_fst_tel (s : State) : ((readConfig s).1).tel = s.tel := rfl
@[simp] theorem readConfig_fst_env (s : State) : ((readConfig s).1).env = s.env := rfl
@[simp] theorem readConfig_fst_wire (s : State) : ((readConfig s).1).out.wire = s.out.wire := rfl
@[simp] theorem readConfig_fst_log (s : State) : ((readConfig s).1).out.log = s.out.log := rfl
@[simp] theorem readConfig_fst_trace (s : State) :
    ((readConfig s).1).out.trace = s.out.trace ++ [.readConfig] := rfl
@[simp] theorem readConfig_fst_result (s : State) :
    ((readConfig s).1).out.result = s.out.result := rfl
@[simp] theorem readConfig_fst_stimuli (s : State) : ((readConfig s).1).stimuli = s.stimuli := rfl

@[simp] theorem readConfig_snd (s : State) : (readConfig s).2 = s.env.liveCfg := rfl

@[simp] theorem snapshotTelemetry_fst_params (s : State) :
    ((snapshotTelemetry s).1).params = s.params := rfl
@[simp] theorem snapshotTelemetry_fst_ctl (s : State) : ((snapshotTelemetry s).1).ctl = s.ctl := rfl
@[simp] theorem snapshotTelemetry_fst_rx (s : State) : ((snapshotTelemetry s).1).rx = s.rx := rfl
@[simp] theorem snapshotTelemetry_fst_rd (s : State) : ((snapshotTelemetry s).1).rd = s.rd := rfl
@[simp] theorem snapshotTelemetry_fst_disp (s : State) :
    ((snapshotTelemetry s).1).disp = s.disp := rfl
@[simp] theorem snapshotTelemetry_fst_wr (s : State) : ((snapshotTelemetry s).1).wr = s.wr := rfl
@[simp] theorem snapshotTelemetry_fst_tel (s : State) : ((snapshotTelemetry s).1).tel = s.tel := rfl
@[simp] theorem snapshotTelemetry_fst_env (s : State) : ((snapshotTelemetry s).1).env = s.env := rfl
@[simp] theorem snapshotTelemetry_fst_wire (s : State) :
    ((snapshotTelemetry s).1).out.wire = s.out.wire := rfl
@[simp] theorem snapshotTelemetry_fst_log (s : State) :
    ((snapshotTelemetry s).1).out.log = s.out.log := rfl
@[simp] theorem snapshotTelemetry_fst_trace (s : State) :
    ((snapshotTelemetry s).1).out.trace = s.out.trace ++ [.snapshotTelemetry] := rfl
@[simp] theorem snapshotTelemetry_fst_result (s : State) :
    ((snapshotTelemetry s).1).out.result = s.out.result := rfl
@[simp] theorem snapshotTelemetry_fst_stimuli (s : State) :
    ((snapshotTelemetry s).1).stimuli = s.stimuli := rfl

@[simp] theorem snapshotTelemetry_snd (s : State) : (snapshotTelemetry s).2 = s.env.live := rfl

@[simp] theorem setMotorOut_params (s : State) (i : Fin 8) (v : Half) :
    (setMotorOut i v s).params = s.params := rfl
@[simp] theorem setMotorOut_ctl (s : State) (i : Fin 8) (v : Half) :
    (setMotorOut i v s).ctl = s.ctl := rfl
@[simp] theorem setMotorOut_rx (s : State) (i : Fin 8) (v : Half) :
    (setMotorOut i v s).rx = s.rx := rfl
@[simp] theorem setMotorOut_rd (s : State) (i : Fin 8) (v : Half) :
    (setMotorOut i v s).rd = s.rd := rfl
@[simp] theorem setMotorOut_disp (s : State) (i : Fin 8) (v : Half) :
    (setMotorOut i v s).disp = s.disp := rfl
@[simp] theorem setMotorOut_wr (s : State) (i : Fin 8) (v : Half) :
    (setMotorOut i v s).wr = s.wr := rfl
@[simp] theorem setMotorOut_tel (s : State) (i : Fin 8) (v : Half) :
    (setMotorOut i v s).tel = s.tel := rfl
@[simp] theorem setMotorOut_persist (s : State) (i : Fin 8) (v : Half) :
    (setMotorOut i v s).env.persist = s.env.persist := rfl
@[simp] theorem setMotorOut_liveCfg (s : State) (i : Fin 8) (v : Half) :
    (setMotorOut i v s).env.liveCfg = s.env.liveCfg := rfl
@[simp] theorem setMotorOut_live (s : State) (i : Fin 8) (v : Half) :
    (setMotorOut i v s).env.live = { s.env.live with motorOut := s.env.live.motorOut.set i v } := rfl
@[simp] theorem setMotorOut_logOpen (s : State) (i : Fin 8) (v : Half) :
    (setMotorOut i v s).env.logOpen = s.env.logOpen := rfl
@[simp] theorem setMotorOut_logLocked (s : State) (i : Fin 8) (v : Half) :
    (setMotorOut i v s).env.logLocked = s.env.logLocked := rfl
@[simp] theorem setMotorOut_lockSet (s : State) (i : Fin 8) (v : Half) :
    (setMotorOut i v s).env.lockSet = s.env.lockSet := rfl
@[simp] theorem setMotorOut_storeAnswers (s : State) (i : Fin 8) (v : Half) :
    (setMotorOut i v s).env.storeAnswers = s.env.storeAnswers := rfl
@[simp] theorem setMotorOut_logAnswers (s : State) (i : Fin 8) (v : Half) :
    (setMotorOut i v s).env.logAnswers = s.env.logAnswers := rfl
@[simp] theorem setMotorOut_wire (s : State) (i : Fin 8) (v : Half) :
    (setMotorOut i v s).out.wire = s.out.wire := rfl
@[simp] theorem setMotorOut_log (s : State) (i : Fin 8) (v : Half) :
    (setMotorOut i v s).out.log = s.out.log := rfl
@[simp] theorem setMotorOut_trace (s : State) (i : Fin 8) (v : Half) :
    (setMotorOut i v s).out.trace = s.out.trace ++ [.setMotorOut i v] := rfl
@[simp] theorem setMotorOut_result (s : State) (i : Fin 8) (v : Half) :
    (setMotorOut i v s).out.result = s.out.result := rfl
@[simp] theorem setMotorOut_stimuli (s : State) (i : Fin 8) (v : Half) :
    (setMotorOut i v s).stimuli = s.stimuli := rfl

@[simp] theorem logOpen_params (s : State) : (logOpen s).params = s.params := rfl
@[simp] theorem logOpen_ctl (s : State) : (logOpen s).ctl = s.ctl := rfl
@[simp] theorem logOpen_rx (s : State) : (logOpen s).rx = s.rx := rfl
@[simp] theorem logOpen_rd (s : State) : (logOpen s).rd = s.rd := rfl
@[simp] theorem logOpen_disp (s : State) : (logOpen s).disp = s.disp := rfl
@[simp] theorem logOpen_wr (s : State) : (logOpen s).wr = s.wr := rfl
@[simp] theorem logOpen_tel (s : State) : (logOpen s).tel = s.tel := rfl
@[simp] theorem logOpen_persist (s : State) : (logOpen s).env.persist = s.env.persist := rfl
@[simp] theorem logOpen_liveCfg (s : State) : (logOpen s).env.liveCfg = s.env.liveCfg := rfl
@[simp] theorem logOpen_live (s : State) : (logOpen s).env.live = s.env.live := rfl
@[simp] theorem logOpen_logOpen (s : State) :
    (logOpen s).env.logOpen = s.env.logAnswers.headD true := rfl
@[simp] theorem logOpen_logLocked (s : State) : (logOpen s).env.logLocked = s.env.logLocked := rfl
@[simp] theorem logOpen_lockSet (s : State) : (logOpen s).env.lockSet = s.env.lockSet := rfl
@[simp] theorem logOpen_storeAnswers (s : State) :
    (logOpen s).env.storeAnswers = s.env.storeAnswers := rfl
@[simp] theorem logOpen_logAnswers (s : State) :
    (logOpen s).env.logAnswers = s.env.logAnswers.tail := rfl
@[simp] theorem logOpen_wire (s : State) : (logOpen s).out.wire = s.out.wire := rfl
@[simp] theorem logOpen_log (s : State) : (logOpen s).out.log = s.out.log := rfl
@[simp] theorem logOpen_trace (s : State) : (logOpen s).out.trace = s.out.trace ++ [.logOpen] := rfl
@[simp] theorem logOpen_result (s : State) : (logOpen s).out.result = s.out.result := rfl
@[simp] theorem logOpen_stimuli (s : State) : (logOpen s).stimuli = s.stimuli := rfl

@[simp] theorem logClose_params (s : State) : (logClose s).params = s.params := rfl
@[simp] theorem logClose_ctl (s : State) : (logClose s).ctl = s.ctl := rfl
@[simp] theorem logClose_rx (s : State) : (logClose s).rx = s.rx := rfl
@[simp] theorem logClose_rd (s : State) : (logClose s).rd = s.rd := rfl
@[simp] theorem logClose_disp (s : State) : (logClose s).disp = s.disp := rfl
@[simp] theorem logClose_wr (s : State) : (logClose s).wr = s.wr := rfl
@[simp] theorem logClose_tel (s : State) : (logClose s).tel = s.tel := rfl
@[simp] theorem logClose_persist (s : State) : (logClose s).env.persist = s.env.persist := rfl
@[simp] theorem logClose_liveCfg (s : State) : (logClose s).env.liveCfg = s.env.liveCfg := rfl
@[simp] theorem logClose_live (s : State) : (logClose s).env.live = s.env.live := rfl
@[simp] theorem logClose_logOpen (s : State) :
    (logClose s).env.logOpen = s.env.logAnswers.headD false := rfl
@[simp] theorem logClose_logLocked (s : State) : (logClose s).env.logLocked = s.env.logLocked := rfl
@[simp] theorem logClose_lockSet (s : State) : (logClose s).env.lockSet = s.env.lockSet := rfl
@[simp] theorem logClose_storeAnswers (s : State) :
    (logClose s).env.storeAnswers = s.env.storeAnswers := rfl
@[simp] theorem logClose_logAnswers (s : State) :
    (logClose s).env.logAnswers = s.env.logAnswers.tail := rfl
@[simp] theorem logClose_wire (s : State) : (logClose s).out.wire = s.out.wire := rfl
@[simp] theorem logClose_log (s : State) : (logClose s).out.log = s.out.log := rfl
@[simp] theorem logClose_trace (s : State) :
    (logClose s).out.trace = s.out.trace ++ [.logClose] := rfl
@[simp] theorem logClose_result (s : State) : (logClose s).out.result = s.out.result := rfl
@[simp] theorem logClose_stimuli (s : State) : (logClose s).stimuli = s.stimuli := rfl

@[simp] theorem logSetLock_params (s : State) (b : Bool) : (logSetLock b s).params = s.params := rfl
@[simp] theorem logSetLock_ctl (s : State) (b : Bool) : (logSetLock b s).ctl = s.ctl := rfl
@[simp] theorem logSetLock_rx (s : State) (b : Bool) : (logSetLock b s).rx = s.rx := rfl
@[simp] theorem logSetLock_rd (s : State) (b : Bool) : (logSetLock b s).rd = s.rd := rfl
@[simp] theorem logSetLock_disp (s : State) (b : Bool) : (logSetLock b s).disp = s.disp := rfl
@[simp] theorem logSetLock_wr (s : State) (b : Bool) : (logSetLock b s).wr = s.wr := rfl
@[simp] theorem logSetLock_tel (s : State) (b : Bool) : (logSetLock b s).tel = s.tel := rfl
@[simp] theorem logSetLock_persist (s : State) (b : Bool) :
    (logSetLock b s).env.persist = s.env.persist := rfl
@[simp] theorem logSetLock_liveCfg (s : State) (b : Bool) :
    (logSetLock b s).env.liveCfg = s.env.liveCfg := rfl
@[simp] theorem logSetLock_live (s : State) (b : Bool) :
    (logSetLock b s).env.live = s.env.live := rfl
@[simp] theorem logSetLock_logOpen (s : State) (b : Bool) :
    (logSetLock b s).env.logOpen = s.env.logOpen := rfl
@[simp] theorem logSetLock_logLocked (s : State) (b : Bool) :
    (logSetLock b s).env.logLocked = b := rfl
@[simp] theorem logSetLock_lockSet (s : State) (b : Bool) :
    (logSetLock b s).env.lockSet = some b := rfl
@[simp] theorem logSetLock_storeAnswers (s : State) (b : Bool) :
    (logSetLock b s).env.storeAnswers = s.env.storeAnswers := rfl
@[simp] theorem logSetLock_logAnswers (s : State) (b : Bool) :
    (logSetLock b s).env.logAnswers = s.env.logAnswers := rfl
@[simp] theorem logSetLock_wire (s : State) (b : Bool) :
    (logSetLock b s).out.wire = s.out.wire := rfl
@[simp] theorem logSetLock_log (s : State) (b : Bool) : (logSetLock b s).out.log = s.out.log := rfl
@[simp] theorem logSetLock_trace (s : State) (b : Bool) :
    (logSetLock b s).out.trace = s.out.trace ++ [.logSetLock b] := rfl
@[simp] theorem logSetLock_result (s : State) (b : Bool) :
    (logSetLock b s).out.result = s.out.result := rfl
@[simp] theorem logSetLock_stimuli (s : State) (b : Bool) :
    (logSetLock b s).stimuli = s.stimuli := rfl

@[simp] theorem logWrite_params (s : State) (bs : List Byte) :
    (logWrite bs s).params = s.params := rfl
@[simp] theorem logWrite_ctl (s : State) (bs : List Byte) : (logWrite bs s).ctl = s.ctl := rfl
@[simp] theorem logWrite_rx (s : State) (bs : List Byte) : (logWrite bs s).rx = s.rx := rfl
@[simp] theorem logWrite_rd (s : State) (bs : List Byte) : (logWrite bs s).rd = s.rd := rfl
@[simp] theorem logWrite_disp (s : State) (bs : List Byte) : (logWrite bs s).disp = s.disp := rfl
@[simp] theorem logWrite_wr (s : State) (bs : List Byte) : (logWrite bs s).wr = s.wr := rfl
@[simp] theorem logWrite_tel (s : State) (bs : List Byte) : (logWrite bs s).tel = s.tel := rfl
@[simp] theorem logWrite_env (s : State) (bs : List Byte) : (logWrite bs s).env = s.env := rfl
@[simp] theorem logWrite_wire (s : State) (bs : List Byte) :
    (logWrite bs s).out.wire = s.out.wire := rfl
@[simp] theorem logWrite_log (s : State) (bs : List Byte) :
    (logWrite bs s).out.log = s.out.log ++ bs := rfl
@[simp] theorem logWrite_trace (s : State) (bs : List Byte) :
    (logWrite bs s).out.trace = s.out.trace ++ [.logWrite bs] := rfl
@[simp] theorem logWrite_result (s : State) (bs : List Byte) :
    (logWrite bs s).out.result = s.out.result := rfl
@[simp] theorem logWrite_stimuli (s : State) (bs : List Byte) :
    (logWrite bs s).stimuli = s.stimuli := rfl

@[simp] theorem writeBytes_params (s : State) (bs : List Byte) :
    (writeBytes bs s).params = s.params := rfl
@[simp] theorem writeBytes_ctl (s : State) (bs : List Byte) : (writeBytes bs s).ctl = s.ctl := rfl
@[simp] theorem writeBytes_rx (s : State) (bs : List Byte) : (writeBytes bs s).rx = s.rx := rfl
@[simp] theorem writeBytes_rd (s : State) (bs : List Byte) : (writeBytes bs s).rd = s.rd := rfl
@[simp] theorem writeBytes_disp (s : State) (bs : List Byte) :
    (writeBytes bs s).disp = s.disp := rfl
@[simp] theorem writeBytes_wr (s : State) (bs : List Byte) : (writeBytes bs s).wr = s.wr := rfl
@[simp] theorem writeBytes_tel (s : State) (bs : List Byte) : (writeBytes bs s).tel = s.tel := rfl
@[simp] theorem writeBytes_env (s : State) (bs : List Byte) : (writeBytes bs s).env = s.env := rfl
@[simp] theorem writeBytes_wire (s : State) (bs : List Byte) :
    (writeBytes bs s).out.wire = s.out.wire ++ bs := rfl
@[simp] theorem writeBytes_log (s : State) (bs : List Byte) :
    (writeBytes bs s).out.log = s.out.log := rfl
@[simp] theorem writeBytes_trace (s : State) (bs : List Byte) :
    (writeBytes bs s).out.trace = s.out.trace ++ [.writeBytes bs] := rfl
@[simp] theorem writeBytes_result (s : State) (bs : List Byte) :
    (writeBytes bs s).out.result = s.out.result := rfl
@[simp] theorem writeBytes_stimuli (s : State) (bs : List Byte) :
    (writeBytes bs s).stimuli = s.stimuli := rfl

@[simp] theorem State.took_params (s : State) (op : CmdOp) : (s.took op).params = s.params := rfl
@[simp] theorem State.took_ctl (s : State) (op : CmdOp) : (s.took op).ctl = s.ctl := rfl
@[simp] theorem State.took_rx (s : State) (op : CmdOp) : (s.took op).rx = s.rx := rfl
@[simp] theorem State.took_buf (s : State) (op : CmdOp) : (s.took op).rd.buf = s.rd.buf := rfl
@[simp] theorem State.took_len (s : State) (op : CmdOp) : (s.took op).rd.len = s.rd.len := rfl
@[simp] theorem State.took_pos (s : State) (op : CmdOp) :
    (s.took op).rd.pos = s.rd.pos + s.tupleBytes op := rfl
@[simp] theorem State.took_type (s : State) (op : CmdOp) :
    (s.took op).disp.type = s.disp.type := rfl
@[simp] theorem State.took_m (s : State) (op : CmdOp) : (s.took op).disp.m = s.disp.m := rfl
@[simp] theorem State.took_ack (s : State) (op : CmdOp) : (s.took op).disp.ack = s.disp.ack := rfl
@[simp] theorem State.took_seq (s : State) (op : CmdOp) : (s.took op).disp.seq = op.seq := rfl
@[simp] theorem State.took_sub (s : State) (op : CmdOp) : (s.took op).disp.sub = s.disp.sub := rfl
@[simp] theorem State.took_ledsub (s : State) (op : CmdOp) :
    (s.took op).disp.ledsub = s.disp.ledsub := rfl
@[simp] theorem State.took_ok (s : State) (op : CmdOp) : (s.took op).disp.ok = s.disp.ok := rfl
@[simp] theorem State.took_wcfg (s : State) (op : CmdOp) :
    (s.took op).disp.wcfg = s.disp.wcfg := rfl
@[simp] theorem State.took_record (s : State) (op : CmdOp) :
    (s.took op).disp.record = s.disp.record := rfl
@[simp] theorem State.took_wr (s : State) (op : CmdOp) : (s.took op).wr = s.wr := rfl
@[simp] theorem State.took_tel (s : State) (op : CmdOp) : (s.took op).tel = s.tel := rfl
@[simp] theorem State.took_env (s : State) (op : CmdOp) : (s.took op).env = s.env := rfl
@[simp] theorem State.took_out (s : State) (op : CmdOp) : (s.took op).out = s.out := rfl
@[simp] theorem State.took_stimuli (s : State) (op : CmdOp) : (s.took op).stimuli = s.stimuli := rfl

end Sys2Proof.Machine
end

