-- ==== Sys2Proof/Laws/Ops.lean ====
section
/-! SUPPORT. For each shared operation, what it answers and all that it can do; that every operation on
memory keeps the canonical form. -/

namespace Sys2Proof.Machine

/-! ### Sequencing -/

theorem bind_eq_ok {α β : Type} {x : Res α} {f : α → Res β} {b : β} :
    x.bind f = .ok b ↔ ∃ a, x = .ok a ∧ f a = .ok b := by
  cases x <;> simp [Except.bind]

theorem map_eq_ok {α β : Type} {x : Res α} {f : α → β} {b : β} :
    x.map f = .ok b ↔ ∃ a, x = .ok a ∧ f a = b := by
  cases x <;> simp [Except.map]

@[simp] theorem bind_ok {α β : Type} (a : α) (f : α → Res β) : (Except.ok a : Res α).bind f = f a := rfl

@[simp] theorem map_ok {α β : Type} (a : α) (f : α → β) :
    (Except.ok a : Res α).map f = .ok (f a) := rfl

@[simp] theorem outcome_ok (s : State) : outcome (.ok s) = .next s := rfl

@[simp] theorem outcome_error (e : Fault) : outcome (.error e) = .fault e := rfl

/-- An outcome of an operation is a next state exactly when the operation answers that state. -/
theorem outcome_eq_next {x : Res State} {t : State} : outcome x = .next t ↔ x = .ok t := by
  cases x <;> simp [outcome]

@[simp] theorem runAll_nil (s : State) : runAll [] s = .ok s := rfl

@[simp] theorem runAll_cons (f : State → Res State) (fs : List (State → Res State)) (s : State) :
    runAll (f :: fs) s = (f s).bind (runAll fs) := rfl

theorem runAll_append (fs gs : List (State → Res State)) (s : State) :
    runAll (fs ++ gs) s = (runAll fs s).bind (runAll gs) := by
  induction fs generalizing s with
  | nil => rfl
  | cons f fs ih =>
    simp only [List.cons_append, runAll_cons]
    cases f s with
    | error e => rfl
    | ok t => exact ih t

/-- A property that each operation keeps is kept by all of them in turn. -/
theorem runAll_keeps (P : State → Prop) (fs : List (State → Res State))
    (h : ∀ f ∈ fs, ∀ s t, P s → f s = .ok t → P t) :
    ∀ s t, P s → runAll fs s = .ok t → P t := by
  induction fs with
  | nil => intro s t hs e; cases e; exact hs
  | cons f fs ih =>
    intro s t hs e
    obtain ⟨u, h1, h2⟩ := bind_eq_ok.mp e
    exact ih (fun g hg => h g (List.mem_cons_of_mem _ hg)) u t (h f List.mem_cons_self s u hs h1) h2

/-- Operations that answer a state with a property from every state with it do so in turn. -/
theorem runAll_completes (P : State → Prop) (fs : List (State → Res State))
    (h : ∀ f ∈ fs, ∀ s, P s → ∃ t, f s = .ok t ∧ P t) :
    ∀ s, P s → ∃ t, runAll fs s = .ok t ∧ P t := by
  induction fs with
  | nil => intro s hs; exact ⟨s, rfl, hs⟩
  | cons f fs ih =>
    intro s hs
    obtain ⟨u, hu, pu⟩ := h f List.mem_cons_self s hs
    obtain ⟨t, ht, pt⟩ := ih (fun g hg => h g (List.mem_cons_of_mem _ hg)) u pu
    exact ⟨t, by simp only [runAll_cons, hu, bind_ok, ht], pt⟩

/-! ### `MemRead` and `MemWrite` -/

theorem inSpace_of_le {size a n : Nat} (h : a + n ≤ size) : inSpace size a n = true := by
  simp [inSpace, h]

theorem memRead_eq {sp : Space} {a n : Nat} {s : State} (h : a + n ≤ s.spaceSize sp) :
    memRead sp a n s = .ok ((s.space sp).readBytes a n) := by
  simp [memRead, inSpace_of_le h]

/-- `MemRead` answers only the bytes of the space. -/
theorem memRead_inv {sp : Space} {a n : Nat} {s : State} {bs : List Byte}
    (h : memRead sp a n s = .ok bs) :
    bs = (s.space sp).readBytes a n ∧ (n = 0 ∨ a + n ≤ s.spaceSize sp) := by
  simp only [memRead] at h
  split at h
  · next hin =>
    cases h
    exact ⟨rfl, by simpa [inSpace] using hin⟩
  · cases h

theorem memWrite_eq {sp : Space} {a : Nat} {bs : List Byte} {s : State}
    (h : a + bs.length ≤ s.spaceSize sp) :
    memWrite sp a bs s = .ok (s.setSpace sp ((s.space sp).writeBytes a bs)) := by
  simp [memWrite, inSpace_of_le h]

/-- `MemWrite` does nothing but write its bytes into the space. -/
theorem memWrite_inv {sp : Space} {a : Nat} {bs : List Byte} {s t : State}
    (h : memWrite sp a bs s = .ok t) :
    t = s.setSpace sp ((s.space sp).writeBytes a bs) ∧ (bs = [] ∨ a + bs.length ≤ s.spaceSize sp) := by
  simp only [memWrite] at h
  split at h
  · next hin =>
    cases h
    exact ⟨rfl, by simpa [inSpace] using hin⟩
  · cases h

theorem memWrite_wcfg_eq {off : Nat} {bs : List Byte} {s : State}
    (h : off + bs.length ≤ s.params.cfgTotal) : memWrite .wcfg off bs s = .ok (s.wroteWcfg off bs) :=
  memWrite_eq h

/-- Every write keeps the canonical form of every space. -/
theorem memWrite_memoryWf {sp : Space} {a : Nat} {bs : List Byte} {s t : State}
    (h : memWrite sp a bs s = .ok t) (hw : s.memoryWf) : t.memoryWf := by
  obtain ⟨rfl, -⟩ := memWrite_inv h
  obtain ⟨h1, h2, h3⟩ := hw
  cases sp
  · exact ⟨Memory.wf_writeBytes bs _ a h1, h2, h3⟩
  · exact ⟨h1, Memory.wf_writeBytes bs _ a h2, h3⟩
  · exact ⟨h1, h2, Memory.wf_writeBytes bs _ a h3⟩

/-- The memory of the machine at reset is in canonical form. -/
theorem reset_memoryWf : State.reset.memoryWf := ⟨rfl, rfl, rfl⟩

/-! ### The Field Reader -/

theorem takeBytes_short {n : Nat} {s : State} (h : s.short n) : takeBytes n s = .ok (s, none) :=
  if_pos h

theorem takeBytes_eq {n : Nat} {s : State} (h : s.canParse n) :
    takeBytes n s = .ok (s.consumed n, some (s.nextBytes n)) := by
  obtain ⟨h1, h2⟩ := h
  have h3 : ¬ s.rd.len - s.rd.pos < n := by omega
  have h4 : s.rd.pos + n ≤ s.spaceSize .rbuf := le_trans h1 h2
  rw [takeBytes, if_neg h3, memRead_eq h4]
  rfl

/-- The reader takes all of its bytes or none. -/
theorem takeBytes_inv {n : Nat} {s t : State} {r : Option (List Byte)} (h : takeBytes n s = .ok (t, r)) :
    (s.short n ∧ t = s ∧ r = none) ∨
    (¬ s.short n ∧ t = s.consumed n ∧ r = some (s.nextBytes n)) := by
  simp only [takeBytes] at h
  split at h
  · next hs => cases h; exact .inl ⟨hs, rfl, rfl⟩
  · next hs =>
    obtain ⟨bs, h1, h2⟩ := map_eq_ok.mp h
    obtain ⟨rfl, -⟩ := memRead_inv h1
    cases h2
    exact .inr ⟨hs, rfl, rfl⟩

theorem parseInto_short {ts : List FieldType} {s : State} (h : s.short (tupleSize ts)) :
    parseInto ts s = .ok (s, none) := by
  simp [parseInto, takeBytes_short h]

theorem parseInto_eq {ts : List FieldType} {s : State} (h : s.canParse (tupleSize ts)) :
    parseInto ts s =
      .ok (s.consumed (tupleSize ts), some (decodeTuple ts (s.nextBytes (tupleSize ts)))) := by
  simp [parseInto, takeBytes_eq h]

/-- `ParseInto` takes all of the tuple's bytes or none. -/
theorem parseInto_inv {ts : List FieldType} {s t : State} {r : Option (List FieldVal)}
    (h : parseInto ts s = .ok (t, r)) :
    (s.short (tupleSize ts) ∧ t = s ∧ r = none) ∨
    (¬ s.short (tupleSize ts) ∧ t = s.consumed (tupleSize ts) ∧
      r = some (decodeTuple ts (s.nextBytes (tupleSize ts)))) := by
  obtain ⟨⟨u, o⟩, h1, h2⟩ := map_eq_ok.mp h
  cases h2
  rcases takeBytes_inv h1 with ⟨a, rfl, rfl⟩ | ⟨a, rfl, rfl⟩
  · exact .inl ⟨a, rfl, rfl⟩
  · exact .inr ⟨a, rfl, rfl⟩

@[simp] theorem nextBytes_length (s : State) (n : Nat) : (s.nextBytes n).length = n :=
  Memory.readBytes_length ..

/-! ### The Field Writer -/

theorem append_eq {bs : List Byte} {s : State} (h : s.room bs.length) :
    append bs s = .ok (s.appended bs, true) := by
  obtain ⟨h1, h2⟩ := h
  rw [append, if_neg (by omega), memWrite_eq h2]
  rfl

theorem append_full {bs : List Byte} {s : State} (h : s.wr.cap < s.wr.len + bs.length) :
    append bs s = .ok ({ s with wr := { s.wr with ovf := true } }, false) := if_pos h

/-- `Append` writes the whole sequence, or it writes nothing and sets `wovf`. -/
theorem append_inv {bs : List Byte} {s t : State} {b : Bool} (h : append bs s = .ok (t, b)) :
    (s.wr.cap < s.wr.len + bs.length ∧ t = { s with wr := { s.wr with ovf := true } } ∧ b = false) ∨
    (s.wr.len + bs.length ≤ s.wr.cap ∧ (bs = [] ∨ s.wr.len + bs.length ≤ s.params.capLarge) ∧
      t = s.appended bs ∧ b = true) := by
  simp only [append] at h
  split at h
  · next hs => cases h; exact .inl ⟨hs, rfl, rfl⟩
  · next hs =>
    obtain ⟨u, h1, h2⟩ := map_eq_ok.mp h
    obtain ⟨rfl, hb⟩ := memWrite_inv h1
    cases h2
    exact .inr ⟨by omega, hb, rfl, rfl⟩

theorem put_eq {bs : List Byte} {s : State} (h : s.room bs.length) : put bs s = .ok (s.appended bs) := by
  simp [put, append_eq h]

theorem put_full {bs : List Byte} {s : State} (h : s.wr.cap < s.wr.len + bs.length) :
    put bs s = .ok { s with wr := { s.wr with ovf := true } } := by
  simp [put, append_full h]

theorem put_inv {bs : List Byte} {s t : State} (h : put bs s = .ok t) :
    (s.wr.cap < s.wr.len + bs.length ∧ t = { s with wr := { s.wr with ovf := true } }) ∨
    (s.wr.len + bs.length ≤ s.wr.cap ∧ (bs = [] ∨ s.wr.len + bs.length ≤ s.params.capLarge) ∧
      t = s.appended bs) := by
  obtain ⟨⟨u, b⟩, h1, h2⟩ := map_eq_ok.mp h
  cases h2
  rcases append_inv h1 with ⟨a, e, -⟩ | ⟨a, c, e, -⟩
  · exact .inl ⟨a, e⟩
  · exact .inr ⟨a, c, e⟩

/-- Appending two sequences is appending them joined. -/
theorem appended_appended (s : State) (xs ys : List Byte) :
    (s.appended xs).appended ys = s.appended (xs ++ ys) := by
  simp only [State.appended, Memory.writeBytes_append, List.length_append, Nat.add_assoc]

theorem room_appended {s : State} {xs : List Byte} {n : Nat} (h : s.room (xs.length + n)) :
    (s.appended xs).room n := by
  obtain ⟨h1, h2⟩ := h
  exact ⟨by simp only [State.appended_wr_len, State.appended_wr_cap]; omega,
    by simp only [State.appended_wr_len, State.appended_params]; omega⟩

theorem put_put_eq {xs ys : List Byte} {s : State} (h : s.room (xs ++ ys).length) :
    (put xs s).bind (put ys) = .ok (s.appended (xs ++ ys)) := by
  rw [List.length_append] at h
  rw [put_eq ⟨le_trans (by omega) h.1, le_trans (by omega) h.2⟩, bind_ok, put_eq (room_appended h),
    appended_appended]

/-- A frame begun: the writer holds the type and the mask (R147). -/
theorem beginFrame_eq {c : FrameClass} {type mask : Word} {s : State} (h1 : 8 ≤ s.params.cap c)
    (h2 : 8 ≤ s.params.capLarge) :
    beginFrame c type mask s =
      .ok { s with wr := ⟨s.wr.buf.writeBytes 0 (le4 type ++ le4 mask), 8, s.params.cap c, false,
                          s.wr.tx⟩ } := by
  have h : State.room { s with wr := { s.wr with cap := s.params.cap c, len := 0, ovf := false } }
      (le4 type ++ le4 mask).length := by
    simp only [List.length_append, le4_length]
    exact ⟨by simpa using h1, by simpa using h2⟩
  rw [beginFrame, put_put_eq h]
  simp [State.appended]

/-- `Send` of a frame that did not overflow (R148). -/
theorem sendFrame_eq {w : Site} {d : Dest} {s : State} (h1 : s.wr.ovf = false) (h2 : s.wr.len ≤ s.params.capLarge) :
    sendFrame w d s =
      .ok (deliver d (encodeFrame s.params (s.wr.buf.readBytes 0 s.wr.len))
        { s with wr := { s.wr with tx := .idle } }) := by
  have h3 : 0 + s.wr.len ≤ s.spaceSize .wbuf := by simpa [State.spaceSize] using h2
  rw [sendFrame, if_neg (by simp [h1]), memRead_eq h3]
  rfl

/-- `Send` of an overflowed frame abandons it (R148). -/
theorem sendFrame_overflow {w : Site} {d : Dest} {s : State} (h : s.wr.ovf = true) :
    sendFrame w d s = .ok (s.raise .overflow w) := if_pos h

/-- `Send` abandons an overflowed frame, or hands over the encoded one. -/
theorem sendFrame_inv {w : Site} {d : Dest} {s t : State} (h : sendFrame w d s = .ok t) :
    (s.wr.ovf = true ∧ t = s.raise .overflow w) ∨
    (s.wr.ovf = false ∧
      t = deliver d (encodeFrame s.params (s.wr.buf.readBytes 0 s.wr.len))
        { s with wr := { s.wr with tx := .idle } }) := by
  simp only [sendFrame] at h
  split at h
  · next ho => cases h; exact .inl ⟨ho, rfl⟩
  · next ho =>
    obtain ⟨bs, h1, h2⟩ := map_eq_ok.mp h
    obtain ⟨rfl, -⟩ := memRead_inv h1
    exact .inr ⟨by simpa using ho, h2.symm⟩

/-- A whole frame, begun, filled and sent to the link (R147, R148). -/
theorem frame_sent {w : Site} {c : FrameClass} {type mask : Word} {body : List Byte} {s : State}
    (hw : s.wr.buf.wf = true) (h1 : 8 + body.length ≤ s.params.cap c)
    (h2 : 8 + body.length ≤ s.params.capLarge) :
    ((beginFrame c type mask s).bind (put body)).bind (sendFrame w .wire) =
      .ok (s.sentFrame c (le4 type ++ le4 mask ++ body)) := by
  have hr : State.room { s with wr := ⟨s.wr.buf.writeBytes 0 (le4 type ++ le4 mask), 8,
      s.params.cap c, false, s.wr.tx⟩ } body.length := ⟨h1, h2⟩
  have hlen : (le4 type ++ le4 mask).length = 8 := by simp
  have hl : (le4 type ++ le4 mask ++ body).length = 8 + body.length := by simp; omega
  rw [beginFrame_eq (by omega) (by omega), bind_ok, put_eq hr, bind_ok]
  rw [sendFrame_eq rfl (by simpa using h2)]
  simp only [State.appended, State.sentFrame, deliver]
  have e : ((s.wr.buf.writeBytes 0 (le4 type ++ le4 mask)).writeBytes 8 body) =
      s.wr.buf.writeBytes 0 (le4 type ++ le4 mask ++ body) := by
    rw [Memory.writeBytes_append s.wr.buf 0 (le4 type ++ le4 mask) body, hlen]
  have r := Memory.readBytes_writeBytes s.wr.buf hw 0 (le4 type ++ le4 mask ++ body)
  rw [hl] at r
  simp only [e, r, hl]

/-! ### Committing -/

/-- `Commit`'s two transactions and its one error outcome (R179). -/
theorem commitRecord_eq (w : Site) (r : List Byte) (s : State) :
    commitRecord w r s =
      (if s.env.storeAnswer.isOk then (storageWrite r (applyConfig r s)).1
       else (storageWrite r (applyConfig r s)).1.raise .collab w, s.env.storeAnswer.isOk) := by
  have h : storageWrite r (applyConfig r s) =
      ((storageWrite r (applyConfig r s)).1, s.env.storeAnswer.isOk) := rfl
  rw [commitRecord, h]
  cases s.env.storeAnswer.isOk <;> rfl

theorem workingRecord_eq (s : State) : workingRecord s = .ok s.wcfgRecord :=
  memRead_eq (by simp [State.spaceSize])

theorem commit_eq (w : Site) (s : State) : commit w s = .ok (commitRecord w s.wcfgRecord s) := by
  simp [commit, workingRecord_eq]

theorem configValid_eq (s : State) : configValid s = .ok (s.params.configValid s.wcfgRecord) := by
  simp [configValid, workingRecord_eq]

/-! ### Record layout -/

/-- Every sub-field lies inside the record. -/
theorem cfgOff_add_size_le (p : Params) (k : SubField) : p.cfgOff k + p.cfgSizeOf k ≤ p.cfgTotal := by
  cases k <;> simp [Params.cfgOff, Params.cfgTotal, SubField.index, SubField.all] <;> omega

/-- Every LED entry lies inside the record. -/
theorem ledOff_add_size_le (p : Params) {i : Nat} (hi : i < 16) :
    p.ledOff i + p.ledEntrySize ≤ p.cfgTotal := by
  have h1 := cfgOff_add_size_le p .ledStates
  have h2 : i * p.ledEntrySize + p.ledEntrySize ≤ 16 * p.ledEntrySize := by
    rw [← Nat.succ_mul]; exact Nat.mul_le_mul_right _ hi
  simp only [Params.ledOff]
  simp only [Params.cfgSizeOf] at h1
  omega

theorem field_length_le (p : Params) (r : List Byte) (k : SubField) :
    (p.field r k).length ≤ p.cfgSizeOf k := by simp [Params.field]

theorem led_length_le (p : Params) (r : List Byte) (i : Nat) :
    (p.led r i).length ≤ p.ledEntrySize := by simp [Params.led]

theorem field_length (p : Params) {r : List Byte} (k : SubField) (h : r.length = p.cfgTotal) :
    (p.field r k).length = p.cfgSizeOf k := by
  have := cfgOff_add_size_le p k
  simp [Params.field, h]; omega

theorem led_length (p : Params) {r : List Byte} {i : Nat} (hi : i < 16) (h : r.length = p.cfgTotal) :
    (p.led r i).length = p.ledEntrySize := by
  have := ledOff_add_size_le p hi
  simp [Params.led, h]; omega

end Sys2Proof.Machine
end

