-- ==== Sys2Proof/Laws/Record.lean ====
section
/-! SUPPORT. What the operations of the Configuration Record multiplexer answer, the layout of the
record in WCFG, and the parameter constraints of R5 as facts. -/

namespace Sys2Proof

/-! ### The constraints of R5 -/

theorem Params.wf_escape {p : Params} (h : p.wf = true) :
    p.escByte ≠ 0#8 ∧ p.escXor ≠ 0#8 ∧ p.escXor ≠ p.escByte := by
  simp only [Params.wf, Bool.and_eq_true] at h
  simpa [Params.wf3, and_assoc] using h.1.1.1.1.1.1.1.1.1.2

theorem Params.wf_capacities {p : Params} (h : p.wf = true) :
    8 + p.cfgTotal ≤ p.capRx ∧ 8 + 2 + 2 + p.cfgTotal ≤ p.capLarge ∧ 12 ≤ p.capSmall ∧
      8 + p.stateLenMax ≤ p.capLarge := by
  simp only [Params.wf, Bool.and_eq_true] at h
  have a := h.1.1.1.1.1.1.1.1.2
  have b := h.1.1.1.1.1.1.1.2
  have c := h.1.1.1.1.1.1.2
  have d := h.1.1.1.1.1.2
  simp only [Params.wf4, Params.wf5, Params.wf6, Params.wf7, decide_eq_true_eq] at a b c d
  exact ⟨a, b, c, d⟩

theorem Params.wf_default {p : Params} (h : p.wf = true) :
    p.cfgDefault.length = p.cfgTotal ∧ p.configValid p.cfgDefault = true := by
  simp only [Params.wf, Bool.and_eq_true] at h
  simpa [Params.wf8] using h.1.1.1.1.2

end Sys2Proof

namespace Sys2Proof.Machine

/-! ### The layout of the record -/

/-- A sub-field ends before the next one begins. -/
theorem cfgOff_lt {p : Params} {j k : SubField} (h : j.index < k.index) :
    p.cfgOff j + p.cfgSizeOf j ≤ p.cfgOff k := by
  cases j <;> cases k <;> simp [SubField.index] at h <;>
    simp [Params.cfgOff, SubField.index, SubField.all] <;> omega

theorem readBytes_take (m : Memory) (a : Nat) {n k : Nat} (h : k ≤ n) :
    (m.readBytes a n).take k = m.readBytes a k := by
  obtain ⟨d, rfl⟩ := Nat.exists_eq_add_of_le h
  rw [Memory.readBytes_add, List.take_append_of_le_length (by simp), List.take_of_length_le (by simp)]

theorem readBytes_drop (m : Memory) (a : Nat) {n k : Nat} (h : k ≤ n) :
    (m.readBytes a n).drop k = m.readBytes (a + k) (n - k) := by
  obtain ⟨d, rfl⟩ := Nat.exists_eq_add_of_le h
  rw [Memory.readBytes_add, List.drop_append_of_le_length (by simp), List.drop_of_length_le (by simp)]
  simp

/-- A sub-field of a record that stands in a space is read at its offset. -/
theorem field_readBytes (p : Params) (m : Memory) (k : SubField) :
    p.field (m.readBytes 0 p.cfgTotal) k = m.readBytes (p.cfgOff k) (p.cfgSizeOf k) := by
  have := cfgOff_add_size_le p k
  rw [Params.field, readBytes_drop _ _ (by omega), readBytes_take _ _ (by omega), Nat.zero_add]

/-- An LED entry of a record that stands in a space is read at its offset. -/
theorem led_readBytes (p : Params) (m : Memory) {i : Nat} (hi : i < 16) :
    p.led (m.readBytes 0 p.cfgTotal) i = m.readBytes (p.ledOff i) p.ledEntrySize := by
  have := ledOff_add_size_le p hi
  rw [Params.led, readBytes_drop _ _ (by omega), readBytes_take _ _ (by omega), Nat.zero_add]

/-- A record in a space is its sub-fields in order. -/
theorem readBytes_fields (p : Params) (m : Memory) :
    m.readBytes 0 p.cfgTotal =
      SubField.all.flatMap fun k => m.readBytes (p.cfgOff k) (p.cfgSizeOf k) := by
  simp only [SubField.all, List.flatMap_cons, List.flatMap_nil, Params.cfgOff, SubField.index,
    List.take_zero, List.take_succ_cons, List.map_cons, List.map_nil, List.sum_cons, List.sum_nil,
    Params.cfgTotal, List.append_nil, Nat.add_zero, Memory.readBytes_add, Nat.zero_add]
  simp only [Nat.add_assoc]

/-- A whole record written into WCFG is the record in WCFG. -/
theorem wcfgRecord_wroteWcfg {s : State} {bs : List Byte} (hw : s.disp.wcfg.wf = true)
    (hl : bs.length = s.params.cfgTotal) : (s.wroteWcfg 0 bs).wcfgRecord = bs := by
  simp only [State.wcfgRecord, State.wroteWcfg_wcfg, State.wroteWcfg_params]
  rw [← hl]
  exact Memory.readBytes_writeBytes s.disp.wcfg hw 0 bs

/-- What one sub-field contributes to a partial record has the length R86 gives it. -/
theorem partialField_length (p : Params) {r : List Byte} (h : r.length = p.cfgTotal)
    (sub ledsub : Half) (k : SubField) :
    (p.partialField r sub ledsub k).length = if sub.getLsbD (p.subBitOf k) then
      (if k = .ledStates then 2 + p.ledEntrySize * ((List.range 16).countP fun i => ledsub.getLsbD i)
       else p.cfgSizeOf k)
    else 0 := by
  have leds : ∀ l : List Nat, (∀ i ∈ l, i < 16) →
      (l.flatMap fun i => if ledsub.getLsbD i then p.led r i else []).length =
        p.ledEntrySize * l.countP fun i => ledsub.getLsbD i := by
    intro l
    induction l with
    | nil => intro _; rfl
    | cons a t ih =>
      intro hl
      rw [List.flatMap_cons, List.length_append, ih fun i hi => hl i (List.mem_cons_of_mem _ hi),
        List.countP_cons]
      have := led_length p (hl a List.mem_cons_self) h
      split
      · simp [*]; ring
      · simp [*]
  unfold Params.partialField
  split
  · split
    · rw [List.length_append, le2_length, leds _ (by simp)]
    · exact field_length p k h
  · rfl

/-! ### The operations -/

/-- `ParseInto` of a tuple that is empty or whose bytes are there. -/
theorem parseInto_of_canTake {ts : List FieldType} {s : State}
    (h : tupleSize ts = 0 ∨ s.canParse (tupleSize ts)) :
    parseInto ts s = .ok (s.consumed (tupleSize ts),
      some (decodeTuple ts (s.nextBytes (tupleSize ts)))) := by
  rcases h with h | h
  · rw [parseInto, takeBytes, h]
    simp [memRead, inSpace, State.space, State.nextBytes, State.consumed, Except.map]
  · exact parseInto_eq h

/-- `ParseInto(bytes[n])` into WCFG, where the bytes are there. -/
theorem parseToWcfg_eq {off n : Nat} {s : State} (h : s.canParse n) (h2 : off + n ≤ s.params.cfgTotal) :
    parseToWcfg off n s = .ok ((s.consumed n).wroteWcfg off (s.nextBytes n)) := by
  rw [parseToWcfg, takeBytes_eq h]
  exact memWrite_wcfg_eq (by simpa using h2)

/-- `ParseInto(bytes[n])` into WCFG, where they are not. -/
theorem parseToWcfg_short {off n : Nat} {s : State} (h : s.short n) :
    parseToWcfg off n s = .ok (s.setOk false) := by
  rw [parseToWcfg, takeBytes_short h]
  rfl

/-- The sub-submask is read and its entries follow. -/
theorem readLedsub_eq {s : State} {l : Half} (entries : State → Res State) (h : s.canParse 2)
    (hb : s.nextBytes 2 = le2 l) : readLedsub entries s = entries ((s.consumed 2).setLedsub l) := by
  rw [readLedsub, parseInto_eq (ts := [.u16]) h]
  show entries ((s.consumed 2).setLedsub (half ((s.nextBytes 2).take 2))) = _
  rw [hb, List.take_of_length_le (by simp), half_le2]

/-- The sub-submask cannot be read. -/
theorem readLedsub_short {s : State} (entries : State → Res State) (h : s.short 2) :
    readLedsub entries s = .ok (s.setOk false) := by
  rw [readLedsub, parseInto_short (ts := [.u16]) h]
  rfl

/-- Operations that each append their bytes append all of them in turn. -/
theorem runAll_append_eq {α : Type} (g : α → State → Res State) (bs : α → List Byte)
    (Q : State → Prop) (hQ : ∀ s x, Q s → Q (s.appended x)) (l : List α)
    (hg : ∀ a ∈ l, ∀ s, Q s → s.room (bs a).length → g a s = .ok (s.appended (bs a))) :
    ∀ s, Q s → s.room (l.flatMap bs).length →
      runAll (l.map g) s = .ok (s.appended (l.flatMap bs)) := by
  induction l with
  | nil => intro s _ _; rfl
  | cons a t ih =>
    intro s hs hr
    simp only [List.flatMap_cons, List.length_append] at hr
    have hra : s.room (bs a).length := ⟨by have := hr.1; omega, by have := hr.2; omega⟩
    rw [List.map_cons, runAll_cons, hg a List.mem_cons_self s hs hra, bind_ok,
      ih (fun b hb => hg b (List.mem_cons_of_mem _ hb)) _ (hQ _ _ hs) (room_appended hr),
      appended_appended]
    rfl

/-- A sub-field of `WritePartial` appends what R86 gives it, where there is room. -/
theorem writeField_eq (k : SubField) (s : State)
    (hr : s.room (s.params.partialField s.disp.record s.disp.sub s.disp.ledsub k).length) :
    writeField k s =
      .ok (s.appended (s.params.partialField s.disp.record s.disp.sub s.disp.ledsub k)) := by
  unfold writeField State.subSelected
  unfold Params.partialField at *
  split
  · next hs =>
    rw [if_pos hs] at hr
    split
    · next hk =>
      rw [if_pos hk, List.length_append] at hr
      have h2 : s.room (le2 s.disp.ledsub).length :=
        ⟨by have := hr.1; omega, by have := hr.2; omega⟩
      rw [put_eq h2, bind_ok, allLeds,
        runAll_append_eq writeLedEntry
          (fun i => if s.disp.ledsub.getLsbD i then s.params.led s.disp.record i else [])
          (fun u => u.disp = s.disp ∧ u.params = s.params) (fun u x h => h) _ ?_
          (s.appended (le2 s.disp.ledsub)) ⟨rfl, rfl⟩ (room_appended hr), appended_appended]
      intro i _ u hu hru
      unfold writeLedEntry State.ledSelected
      rw [hu.1, hu.2]
      split at hru
      · next e => rw [if_pos e, put_eq hru, if_pos e]
      · next e => rw [if_neg e, if_neg e]; rfl
    · next hk => rw [if_neg hk] at hr; exact put_eq hr
  · rfl

/-- The record of any tuple has `CFG_TOTAL` bytes. -/
theorem recordOperand_length (p : Params) (vs : List FieldVal) :
    (recordOperand p vs).length = p.cfgTotal := by
  unfold recordOperand
  split
  · assumption
  · simp

/-- The record of R82's tuple is its bytes. -/
theorem recordOperand_bytes (p : Params) {bs : List Byte} (h : bs.length = p.cfgTotal) :
    recordOperand p [.bytes bs] = bs := by
  simp [recordOperand, encodeField, h]

/-- `ReadFull` where the record is there. -/
theorem readFull_eq {s : State} (h : s.canParse s.params.cfgTotal) :
    readFull s = .ok ((s.consumed s.params.cfgTotal).wroteWcfg 0 (s.nextBytes s.params.cfgTotal),
      true) := by
  have e : tupleSize [FieldType.bytes s.params.cfgTotal] = s.params.cfgTotal := by
    simp [tupleSize, fieldSize]
  have r : recordOperand s.params
      (decodeTuple [.bytes s.params.cfgTotal] (s.nextBytes s.params.cfgTotal)) =
        s.nextBytes s.params.cfgTotal := by
    simp [decodeTuple, decodeField, fieldSize, List.take_of_length_le, recordOperand_bytes]
  rw [readFull, parseInto_of_canTake (.inr (by rwa [e])), bind_ok, e]
  show Except.map _ (memWrite .wcfg 0 _ (s.consumed _)) = _
  rw [r, memWrite_wcfg_eq (by simp)]
  rfl

end Sys2Proof.Machine
end

