-- ==== Sys2Proof/Laws/Dispatcher.lean ====
section
/-! SUPPORT. What the shared operations of the dispatcher and of the telemetry encoder answer, and which
of them each row of the formats CMD, SUB and STATE is. -/

namespace Sys2Proof.Machine

/-! ### Rows -/

/-- A CMD row is the slot of its operation. -/
theorem exec_cmd (op : CmdOp) (s : State) : exec op.instr s = outcome (slotOf op s) := by
  cases op with
  | motor i => fin_cases i <;> rfl
  | _ => rfl

/-- A SUB row is its procedure's work at its sub-field. -/
theorem exec_sub (k : SubField) (w : SubWalk) (s : State) :
    exec (k.instr w) s = outcome (subRow k w s) := by
  cases k <;> rfl

/-- A STATE row is the table's row of its field. -/
theorem exec_tel (f : TelField) (s : State) : exec f.instr s = outcome (stateRow f s) := by
  cases f <;> rfl

/-! ### Slots and tuples -/

theorem slotOf_selected {op : CmdOp} {s : State} (h : s.selected op = true) :
    slotOf op s = attempt op (s.setSeq op.seq) := by
  have : (s.setSeq op.seq).selected op = true := h
  simp [slotOf, slot, this]

theorem slotOf_clear {op : CmdOp} {s : State} (h : s.selected op = false) :
    slotOf op s = .ok (s.setSeq op.seq) := by
  have : (s.setSeq op.seq).selected op = false := h
  simp [slotOf, slot, this]

theorem withTuple_short {op : CmdOp} {body : List FieldVal → State → Res State} {s : State}
    (h : s.short (tupleSize (opPayload s.params op))) :
    withTuple op body s = .ok (s.raise .parse (.op op)) := by
  rw [withTuple, parseInto_short h]
  rfl

/-- An operation whose tuple is there acts on its values. -/
theorem withTuple_eq {op : CmdOp} {body : List FieldVal → State → Res State} {s : State}
    (h : s.canTake op) :
    withTuple op body s = body (s.operands op) (s.consumed (s.tupleBytes op)) := by
  rw [withTuple, parseInto_of_canTake h]
  rfl

/-- A selected slot whose tuple is there acts on its values, whatever the tuple is. -/
theorem slotOf_act {op : CmdOp} {s : State} (h : s.selected op = true) (hc : s.canTake op) :
    slotOf op s = act op (s.operands op) (s.took op) := by
  have hc' : (s.setSeq op.seq).canTake op := hc
  rw [slotOf_selected h, attempt, withTuple_eq hc']
  rfl

/-- A selected slot with R82's tuple of `n` bytes acts on its values. -/
theorem slotOf_r82 {op : CmdOp} {s : State} {n : Nat} (hu : s.usesR82 op) (h : s.selected op = true)
    (hn : tupleSize (defaultPayload s.params op) = n) (hc : s.canParse n) :
    slotOf op s =
      act op (decodeTuple (defaultPayload s.params op) (s.nextBytes n)) ((s.setSeq op.seq).consumed n) := by
  have ht : s.tupleBytes op = n := by rw [State.tupleBytes, hu, hn]
  rw [slotOf_act h (.inr (by rwa [ht])), State.operands, State.took, ht, hu]

/-- A selected slot without a payload acts at once. -/
theorem slotOf_r82_nil {op : CmdOp} {s : State} (hu : s.usesR82 op) (h : s.selected op = true)
    (hn : defaultPayload s.params op = []) : slotOf op s = act op [] (s.setSeq op.seq) := by
  have ht : s.tupleBytes op = 0 := by rw [State.tupleBytes, hu, hn]; rfl
  rw [slotOf_act h (.inl ht), State.operands, State.took, ht, hu, hn]
  rfl

/-- A selected slot whose tuple is short raises `E_PARSE`. -/
theorem slotOf_short {op : CmdOp} {s : State} (h : s.selected op = true)
    (hs : s.short (s.tupleBytes op)) :
    slotOf op s = .ok ((s.setSeq op.seq).raise .parse (.op op)) := by
  have hs' : (s.setSeq op.seq).short (tupleSize (opPayload (s.setSeq op.seq).params op)) := hs
  rw [slotOf_selected h, attempt, withTuple_short hs']

/-- A selected slot with R82's tuple of `n` bytes raises `E_PARSE` where fewer remain. -/
theorem slotOf_r82_short {op : CmdOp} {s : State} {n : Nat} (hu : s.usesR82 op)
    (h : s.selected op = true) (hn : tupleSize (defaultPayload s.params op) = n) (hs : s.short n) :
    slotOf op s = .ok ((s.setSeq op.seq).raise .parse (.op op)) := by
  have ht : s.tupleBytes op = n := by rw [State.tupleBytes, hu, hn]
  exact slotOf_short h (by rwa [ht])

/-! ### Committing -/

theorem commitAndAck_eq (op : CmdOp) (s : State) :
    commitAndAck op s = .ok
      (if s.env.storeAnswer.isOk then (s.committed s.wcfgRecord).ackOp op
       else (s.committed s.wcfgRecord).raise .collab (.op op)) := by
  rw [commitAndAck, commit_eq, commitRecord_eq]
  cases s.env.storeAnswer.isOk <;> rfl

theorem validateAndCommit_eq (op : CmdOp) (s : State) :
    validateAndCommit op s = .ok
      (if s.params.configValid s.wcfgRecord then
        (if s.env.storeAnswer.isOk then (s.committed s.wcfgRecord).ackOp op
         else (s.committed s.wcfgRecord).raise .collab (.op op))
       else s.raise .valid (.op op)) := by
  rw [validateAndCommit, configValid_eq, bind_ok, commitAndAck_eq]
  cases s.params.configValid s.wcfgRecord <;> rfl

theorem loadPersisted_eq {s : State} (h : s.env.persist.length = s.params.cfgTotal) :
    loadPersisted s = .ok ((s.record .storageRead).wroteWcfg 0 s.env.persist) := by
  unfold loadPersisted
  exact memWrite_wcfg_eq (s := s.record .storageRead) (by simp [h])

/-! ### Telemetry rows -/

theorem fieldBytes_length (t : Telem) (f : TelField) : (t.fieldBytes f).length = f.size := by
  have hh : ∀ l : List Half, (halvesBytes l).length = 2 * l.length := by
    intro l
    induction l with
    | nil => rfl
    | cons a t ih => simp [halvesBytes] at *; omega
  cases f <;> simp [Telem.fieldBytes, TelField.size, Triple.bytes, PidTuple.bytes, Axes.bytes,
    ForceTorque.bytes, hh]

/-- Every row of the table appends as many bytes as it has in its size column. -/
theorem rowBytes_length (t : Telem) (r : TelemetryRow) : (t.rowBytes r).length = r.size := by
  have h : (t.snap.otherBytes r).length = r.size := by simp [Snapshot.otherBytes]
  unfold Telem.rowBytes
  split
  · split
    · next e => rw [e]; exact fieldBytes_length t _
    · split
      · simp
      · exact h
  · exact h

/-- A row whose value the snapshot holds at the row's width has that value's bytes. -/
theorem otherBytes_eq {n : Snapshot} {r : TelemetryRow} {bs : List Byte}
    (h : n.others.lookup r.bit = some bs) (hl : bs.length = r.size) : n.otherBytes r = bs := by
  simp only [Snapshot.otherBytes, h, Option.getD_some, ← hl]
  exact List.ext_getElem (by simp) fun i h1 h2 => by simp [h2]

/-- A selected row of the table appends its bytes, where there is room; any other appends nothing. -/
theorem emitRow_eq (r : TelemetryRow) (s : State)
    (h : s.room (if s.tel.eff.getLsbD r.bit then s.tel.rowBytes r else []).length) :
    emitRow r s =
      .ok (s.appended (if s.tel.eff.getLsbD r.bit then s.tel.rowBytes r else [])) := by
  unfold emitRow State.effSelected
  split
  · next e => rw [if_pos e] at h; exact put_eq h
  · rfl

end Sys2Proof.Machine
end

