-- ==== Sys2Proof/Laws/Encoding.lean ====
section
/-! SUPPORT. Whatever the decoder answers is well formed: the operand fields have no room for more. -/

namespace Sys2Proof

theorem getLe_lt {n v : Nat} {bs r : List Byte} (h : getLe n bs = some (v, r)) : v < 256 ^ n := by
  unfold getLe at h
  split at h
  · next hn =>
    cases h
    have := fromLe_lt (bs.take n)
    rwa [List.length_take, Nat.min_eq_left hn] at this
  · cases h

theorem getBytes_fits {bs x r : List Byte} (h : getBytes bs = some (x, r)) : fits32 x.length = true := by
  unfold getBytes at h
  split at h
  · cases h
  · next n r' hn =>
    split at h
    · next hl =>
      cases h
      have := getLe_lt hn
      simp [fits32, List.length_take, Nat.min_eq_left hl]
      omega
    · cases h

theorem getType_wf {bs r : List Byte} {t : FieldType} (h : getType bs = some (t, r)) : t.wf = true := by
  cases bs with
  | nil => cases h
  | cons c bs =>
    simp only [getType] at h
    split at h
    case h_9 =>
      obtain ⟨⟨n, q⟩, h1, h2⟩ := Option.map_eq_some_iff.mp h
      cases h2
      have := getLe_lt h1
      simp only [FieldType.wf, fits32, decide_eq_true_eq]
      omega
    all_goals cases h
    all_goals rfl

theorem getTypes_wf {n : Nat} : ∀ {bs r : List Byte} {ts : List FieldType},
    getTypes n bs = some (ts, r) → ts.length = n ∧ ts.all FieldType.wf = true := by
  induction n with
  | zero => intro bs r ts h; cases h; exact ⟨rfl, rfl⟩
  | succ n ih =>
    intro bs r ts h
    simp only [getTypes] at h
    split at h
    · cases h
    · next t r' ht =>
      obtain ⟨⟨us, q⟩, h1, h2⟩ := Option.map_eq_some_iff.mp h
      cases h2
      have := ih h1
      simp [getType_wf ht, this]

theorem used_eq {α : Type} {o : Option (α × List Byte)} {a : α} (h : used o = some a) :
    o = some (a, []) := by
  unfold used at h
  split at h
  · cases h; rfl
  · cases h

theorem opOf_wf {sel : Nat} {bs : List Byte} {i : Instr} (h : opOf sel bs = some i) : i.wf = true := by
  unfold opOf at h
  split at h
  case h_1 | h_8 | h_12 =>
    obtain ⟨x, hx, rfl⟩ := Option.map_eq_some_iff.mp h
    exact getBytes_fits (used_eq hx)
  case h_2 =>
    split at h
    · next f r hf =>
      obtain ⟨x, hx, rfl⟩ := Option.map_eq_some_iff.mp h
      have := getLe_lt (used_eq hx)
      rw [Instr.wf, getBytes_fits hf, Bool.true_and, fits32, decide_eq_true_eq]
      omega
    · cases h
  case h_7 =>
    split at h
    · next n r hn =>
      obtain ⟨x, hx, rfl⟩ := Option.map_eq_some_iff.mp h
      have := getTypes_wf (used_eq hx)
      have := getLe_lt hn
      simp only [Instr.wf, fits32, Bool.and_eq_true, decide_eq_true_eq]
      exact ⟨by omega, by tauto⟩
    · cases h
  all_goals (repeat' split at h) <;> simp at h
  all_goals first
    | (rcases h with ⟨-, rfl⟩ | ⟨-, rfl⟩ <;> rfl)
    | (obtain ⟨_, -, rfl⟩ := h; rfl)

theorem selectRows_mem {w : Nat} {rows : List (Nat × Instr)} {i : Instr}
    (h : i ∈ selectRows w rows) : ∃ b, (b, i) ∈ rows := by
  induction rows with
  | nil => cases h
  | cons r rows ih =>
    simp only [selectRows] at h
    split at h
    · rcases List.mem_cons.mp h with rfl | h
      · exact ⟨r.1, List.mem_cons_self⟩
      · obtain ⟨b, hb⟩ := ih h; exact ⟨b, List.mem_cons_of_mem _ hb⟩
    · obtain ⟨b, hb⟩ := ih h; exact ⟨b, List.mem_cons_of_mem _ hb⟩

theorem selection_eq {is js : List Instr} (h : selection is = .ok js) : js = is := by
  cases is with
  | nil => cases h
  | cons a t => cases h; rfl

/-- Every instruction that bytes name is well formed, so `step` refuses none for its operands. -/
theorem decodeAll_wf {f : Format} {bs : List Byte} {is : List Instr} (h : decodeAll f bs = .ok is) :
    ∀ i ∈ is, i.wf = true := by
  have rows : ∀ (w : Nat) (l : List (Nat × Instr)), (∀ r ∈ l, r.2.wf = true) →
      ∀ i ∈ selectRows w l, i.wf = true := by
    intro w l hl i hi
    obtain ⟨b, hb⟩ := selectRows_mem hi
    exact hl _ hb
  cases f with
  | hdr =>
    simp only [decodeAll] at h
    split at h
    · split at h <;> cases h <;> simp [Instr.wf]
    · cases h
  | cmd =>
    simp only [decodeAll] at h
    split at h
    · rw [selection_eq h]; exact rows _ _ (by decide)
    · cases h
  | sub =>
    simp only [decodeAll] at h
    split at h
    · split at h
      · next k _ => rw [selection_eq h]; exact rows _ _ (by cases k <;> decide)
      · cases h
    · cases h
  | state =>
    simp only [decodeAll] at h
    split at h
    · rw [selection_eq h]; exact rows _ _ (by decide)
    · cases h
  | op =>
    simp only [decodeAll, decodeOp] at h
    split at h
    · cases h
    · split at h
      · cases h
      · split at h
        · next j hj =>
          cases h
          intro i hi
          rw [List.mem_singleton.mp hi]
          exact opOf_wf hj
        · cases h

end Sys2Proof
end

