-- ==== Sys2Proof/Laws/PerInstr.lean ====
section
/-! SUPPORT. Statements made per instruction, one lemma per constructor. -/

namespace Sys2Proof.Laws

/-- The number of bytes of a word of a format; an OP row's bytes are its selector and its operands. -/
def wordBytes : Format → Option Nat
  | .hdr | .cmd | .state => some 4
  | .sub => some 3
  | .op => none

/-- The encoder puts an instruction in the word that its row of the table is matched against, at that
word's width; an OP row has at least its selector. -/
def EncodingShape.Statement (i : Instr) : Prop :=
  (encode i).1 = i.format ∧
    (match wordBytes i.format with
     | some n => (encode i).2.length = n
     | none => 1 ≤ (encode i).2.length)

theorem EncodingShape.setEepromData : EncodingShape.Statement .setEepromData := ⟨rfl, rfl⟩

theorem EncodingShape.reinitEepromData : EncodingShape.Statement .reinitEepromData := ⟨rfl, rfl⟩

theorem EncodingShape.reqEepromData : EncodingShape.Statement .reqEepromData := ⟨rfl, rfl⟩

theorem EncodingShape.reqEnableIteration : EncodingShape.Statement .reqEnableIteration := ⟨rfl, rfl⟩

theorem EncodingShape.motorOverrideSpeed0 : EncodingShape.Statement .motorOverrideSpeed0 :=
  ⟨rfl, rfl⟩

theorem EncodingShape.motorOverrideSpeed1 : EncodingShape.Statement .motorOverrideSpeed1 :=
  ⟨rfl, rfl⟩

theorem EncodingShape.motorOverrideSpeed2 : EncodingShape.Statement .motorOverrideSpeed2 :=
  ⟨rfl, rfl⟩

theorem EncodingShape.motorOverrideSpeed3 : EncodingShape.Statement .motorOverrideSpeed3 :=
  ⟨rfl, rfl⟩

theorem EncodingShape.motorOverrideSpeed4 : EncodingShape.Statement .motorOverrideSpeed4 :=
  ⟨rfl, rfl⟩

theorem EncodingShape.motorOverrideSpeed5 : EncodingShape.Statement .motorOverrideSpeed5 :=
  ⟨rfl, rfl⟩

theorem EncodingShape.motorOverrideSpeed6 : EncodingShape.Statement .motorOverrideSpeed6 :=
  ⟨rfl, rfl⟩

theorem EncodingShape.motorOverrideSpeed7 : EncodingShape.Statement .motorOverrideSpeed7 :=
  ⟨rfl, rfl⟩

theorem EncodingShape.setCommandOverride : EncodingShape.Statement .setCommandOverride := ⟨rfl, rfl⟩

theorem EncodingShape.setStateMask : EncodingShape.Statement .setStateMask := ⟨rfl, rfl⟩

theorem EncodingShape.setStateDelay : EncodingShape.Statement .setStateDelay := ⟨rfl, rfl⟩

theorem EncodingShape.setSdWriteDelay : EncodingShape.Statement .setSdWriteDelay := ⟨rfl, rfl⟩

theorem EncodingShape.setLed : EncodingShape.Statement .setLed := ⟨rfl, rfl⟩

theorem EncodingShape.setSerialRc : EncodingShape.Statement .setSerialRc := ⟨rfl, rfl⟩

theorem EncodingShape.setCardRecording : EncodingShape.Statement .setCardRecording := ⟨rfl, rfl⟩

theorem EncodingShape.setPartialEepromData : EncodingShape.Statement .setPartialEepromData :=
  ⟨rfl, rfl⟩

theorem EncodingShape.reinitPartialEepromData : EncodingShape.Statement .reinitPartialEepromData :=
  ⟨rfl, rfl⟩

theorem EncodingShape.reqPartialEepromData : EncodingShape.Statement .reqPartialEepromData :=
  ⟨rfl, rfl⟩

theorem EncodingShape.reqCardRecordingState : EncodingShape.Statement .reqCardRecordingState :=
  ⟨rfl, rfl⟩

theorem EncodingShape.reqResponse : EncodingShape.Statement .reqResponse := ⟨rfl, rfl⟩

theorem EncodingShape.version (k : SubWalk) : EncodingShape.Statement (.version k) := ⟨rfl, rfl⟩

theorem EncodingShape.pcb (k : SubWalk) : EncodingShape.Statement (.pcb k) := ⟨rfl, rfl⟩

theorem EncodingShape.mixTable (k : SubWalk) : EncodingShape.Statement (.mixTable k) := ⟨rfl, rfl⟩

theorem EncodingShape.magBias (k : SubWalk) : EncodingShape.Statement (.magBias k) := ⟨rfl, rfl⟩

theorem EncodingShape.channel (k : SubWalk) : EncodingShape.Statement (.channel k) := ⟨rfl, rfl⟩

theorem EncodingShape.pidParameters (k : SubWalk) : EncodingShape.Statement (.pidParameters k) :=
  ⟨rfl, rfl⟩

theorem EncodingShape.stateParameters (k : SubWalk) : EncodingShape.Statement (.stateParameters k) :=
  ⟨rfl, rfl⟩

theorem EncodingShape.ledStates (k : SubWalk) : EncodingShape.Statement (.ledStates k) := ⟨rfl, rfl⟩

theorem EncodingShape.deviceName (k : SubWalk) : EncodingShape.Statement (.deviceName k) :=
  ⟨rfl, rfl⟩

theorem EncodingShape.micros : EncodingShape.Statement .micros := ⟨rfl, rfl⟩

theorem EncodingShape.status : EncodingShape.Statement .status := ⟨rfl, rfl⟩

theorem EncodingShape.v0 : EncodingShape.Statement .v0 := ⟨rfl, rfl⟩

theorem EncodingShape.i0 : EncodingShape.Statement .i0 := ⟨rfl, rfl⟩

theorem EncodingShape.i1 : EncodingShape.Statement .i1 := ⟨rfl, rfl⟩

theorem EncodingShape.accel : EncodingShape.Statement .accel := ⟨rfl, rfl⟩

theorem EncodingShape.gyro : EncodingShape.Statement .gyro := ⟨rfl, rfl⟩

theorem EncodingShape.mag : EncodingShape.Statement .mag := ⟨rfl, rfl⟩

theorem EncodingShape.temperature : EncodingShape.Statement .temperature := ⟨rfl, rfl⟩

theorem EncodingShape.pressure : EncodingShape.Statement .pressure := ⟨rfl, rfl⟩

theorem EncodingShape.rxPpm : EncodingShape.Statement .rxPpm := ⟨rfl, rfl⟩

theorem EncodingShape.auxChanMask : EncodingShape.Statement .auxChanMask := ⟨rfl, rfl⟩

theorem EncodingShape.commands : EncodingShape.Statement .commands := ⟨rfl, rfl⟩

theorem EncodingShape.fAndT : EncodingShape.Statement .fAndT := ⟨rfl, rfl⟩

theorem EncodingShape.pidFzMaster : EncodingShape.Statement .pidFzMaster := ⟨rfl, rfl⟩

theorem EncodingShape.pidTxMaster : EncodingShape.Statement .pidTxMaster := ⟨rfl, rfl⟩

theorem EncodingShape.pidTyMaster : EncodingShape.Statement .pidTyMaster := ⟨rfl, rfl⟩

theorem EncodingShape.pidTzMaster : EncodingShape.Statement .pidTzMaster := ⟨rfl, rfl⟩

theorem EncodingShape.pidFzSlave : EncodingShape.Statement .pidFzSlave := ⟨rfl, rfl⟩

theorem EncodingShape.pidTxSlave : EncodingShape.Statement .pidTxSlave := ⟨rfl, rfl⟩

theorem EncodingShape.pidTySlave : EncodingShape.Statement .pidTySlave := ⟨rfl, rfl⟩

theorem EncodingShape.pidTzSlave : EncodingShape.Statement .pidTzSlave := ⟨rfl, rfl⟩

theorem EncodingShape.motorOut : EncodingShape.Statement .motorOut := ⟨rfl, rfl⟩

theorem EncodingShape.kineAngle : EncodingShape.Statement .kineAngle := ⟨rfl, rfl⟩

theorem EncodingShape.kineRate : EncodingShape.Statement .kineRate := ⟨rfl, rfl⟩

theorem EncodingShape.kineAltitude : EncodingShape.Statement .kineAltitude := ⟨rfl, rfl⟩

theorem EncodingShape.loopCount : EncodingShape.Statement .loopCount := ⟨rfl, rfl⟩

theorem EncodingShape.typeCommand : EncodingShape.Statement .typeCommand := ⟨rfl, rfl⟩

theorem EncodingShape.typeState : EncodingShape.Statement .typeState := ⟨rfl, rfl⟩

theorem EncodingShape.typeResponse : EncodingShape.Statement .typeResponse := ⟨rfl, rfl⟩

theorem EncodingShape.encode (p : List Byte) : EncodingShape.Statement (.encode p) :=
  ⟨rfl, Nat.le_add_left ..⟩

theorem EncodingShape.decode (f : List Byte) (cap : Nat) : EncodingShape.Statement (.decode f cap) :=
  ⟨rfl, Nat.le_add_left ..⟩

theorem EncodingShape.rxByte (b : Byte) : EncodingShape.Statement (.rxByte b) :=
  ⟨rfl, Nat.le_add_left ..⟩

theorem EncodingShape.process : EncodingShape.Statement .process := ⟨rfl, Nat.le_add_left ..⟩

theorem EncodingShape.emit (ts : Word) (mask : Word) (toLog : Bool) : EncodingShape.Statement (.emit ts mask toLog) :=
  ⟨rfl, Nat.le_add_left ..⟩

theorem EncodingShape.reset : EncodingShape.Statement .reset := ⟨rfl, Nat.le_add_left ..⟩

theorem EncodingShape.parseInto (ts : List FieldType) : EncodingShape.Statement (.parseInto ts) :=
  ⟨rfl, Nat.le_add_left ..⟩

theorem EncodingShape.append (bs : List Byte) : EncodingShape.Statement (.append bs) :=
  ⟨rfl, Nat.le_add_left ..⟩

theorem EncodingShape.beginFrame (c : FrameClass) (type : Word) (mask : Word) : EncodingShape.Statement (.beginFrame c type mask) :=
  ⟨rfl, Nat.le_add_left ..⟩

theorem EncodingShape.send (d : Dest) : EncodingShape.Statement (.send d) :=
  ⟨rfl, Nat.le_add_left ..⟩

theorem EncodingShape.verify : EncodingShape.Statement .verify := ⟨rfl, Nat.le_add_left ..⟩

theorem EncodingShape.fromString (bs : List Byte) : EncodingShape.Statement (.fromString bs) :=
  ⟨rfl, Nat.le_add_left ..⟩

theorem EncodingShape.readFull : EncodingShape.Statement .readFull := ⟨rfl, Nat.le_add_left ..⟩

theorem EncodingShape.writeFull : EncodingShape.Statement .writeFull := ⟨rfl, Nat.le_add_left ..⟩

theorem EncodingShape.writePartial (sub : Half) (ledsub : Half) : EncodingShape.Statement (.writePartial sub ledsub) :=
  ⟨rfl, Nat.le_add_left ..⟩

theorem EncodingShape.parsePartial (sub : Half) : EncodingShape.Statement (.parsePartial sub) :=
  ⟨rfl, Nat.le_add_left ..⟩

theorem EncodingShape.resetPartial (sub : Half) : EncodingShape.Statement (.resetPartial sub) :=
  ⟨rfl, Nat.le_add_left ..⟩

theorem EncodingShape.configValid : EncodingShape.Statement .configValid :=
  ⟨rfl, Nat.le_add_left ..⟩

theorem EncodingShape.commit : EncodingShape.Statement .commit := ⟨rfl, Nat.le_add_left ..⟩

theorem EncodingShape.stateLen (mask : Word) : EncodingShape.Statement (.stateLen mask) :=
  ⟨rfl, Nat.le_add_left ..⟩

end Sys2Proof.Laws
end

