-- ==== Sys2Proof/Tests/Slice0.lean ====
section
/-! SUPPORT. Tests. Expected values are the spec's: the encoding tables of 30_encoding.md and the vectors
of 95_test_vectors.md (named by section and row). `test_` theorems check one thing each; `witness_`
theorems show a state and operands that meet the hypotheses of the statement of that name, at the
boundary values of each clause. -/

namespace Sys2Proof.Tests

open Sys2Proof Sys2Proof.Machine

set_option Elab.async false

/-! ### Helpers -/

/-- A next state with a property. -/
def nextIs (o : Host.Outcome State Fault Refusal) (p : State → Bool) : Bool :=
  match o with
  | .next t => p t
  | _ => false

/-- A refusal, and which. -/
def refusedAs (o : Host.Outcome State Fault Refusal) (r : Refusal) : Bool :=
  match o with
  | .refused x => x == r
  | _ => false

/-- S0 with one payload in the queue. -/
def queued (payload : List Byte) : State :=
  { State.reset with rx := { State.reset.rx with queue := [payload] } }

/-- S0 with a Command frame queued: the four type bytes, then the given ones. -/
def command (bs : List Byte) : State := queued ([0, 0, 0, 0] ++ bs)

/-- S0 inside a Command frame with a mask and unread payload bytes. -/
def inFrame (m : Word) (body : List Byte) : State :=
  { State.reset with
    rd := ⟨Memory.empty.writeBytes 0 body, body.length, 0⟩,
    disp := { State.reset.disp with m := m } }

/-- S0 with a record in WCFG, a submask, and unread payload bytes. -/
def inRecord (sub : Half) (ok : Bool) (body : List Byte) : State :=
  { inFrame 0 body with
    disp := { State.reset.disp with
      sub := sub, ok := ok, wcfg := Memory.empty.writeBytes 0 Config.testRecord,
      record := Config.testRecord } }

/-- S0 with a frame begun: room for `cap` bytes, none written. -/
def writing (cap : Nat) (s : State) : State := { s with wr := ⟨Memory.empty, 0, cap, false, .idle⟩ }

/-- The bytes of the frame being built. -/
def frameBytes (s : State) : List Byte := s.wr.buf.readBytes 0 s.wr.len

/-- The valid record N1 of 95_test_vectors.md. -/
def recordN1 : List Byte :=
  [0x01, 0x02, 0x03, 0x14, 0x15, 0x24, 0x25, 0x34, 0x35, 0x44, 0x54, 0x55, 0x64,
   0xC0, 0xC1, 0xC2, 0xC3, 0xC4, 0xC5, 0xC6, 0xC7, 0xC8, 0xC9, 0xCA, 0xCB, 0xCC, 0xCD, 0xCE, 0xCF,
   0x4E, 0x65, 0x77, 0x2D, 0x31, 0x00, 0x00, 0x00, 0x00]

/-- The invalid record BAD of 95_test_vectors.md (its name holds an illegal character). -/
def recordBad : List Byte :=
  recordN1.take 29 ++ [0x62, 0x61, 0x64, 0x21, 0x6E, 0x61, 0x6D, 0x65, 0x00]

/-- The PID tuples of S1: `lastTime` and `input` differ, the rest is common. -/
def pidS1 (lastTime input : Word) : PidTuple :=
  ⟨lastTime, input, 0x3F800000, 0x3E800000, 0, 0xBE800000⟩

/-- The snapshot S1 of section 7 of 95_test_vectors.md. -/
def snapS1 : Snapshot where
  status := 0x8001
  v0 := 837
  i0 := 16
  i1 := 0
  accel := ⟨0, 0, 0x3F800000⟩
  gyro := ⟨0xBF800000, 0x3F000000, 0⟩
  mag := ⟨0x7FC00000, 0, 0x80000000⟩
  temperature := 2550
  pressure := 0x018BCD00
  rxPpm := #v[1500, 1500, 1000, 1500, 0xFFFF, 0x8000]
  auxChanMask := 5
  commands := ⟨1000, 0, 0xFFFF, 1⟩
  fAndT := ⟨0x3F800000, 0, 0, 0x80000000⟩
  pidFzMaster := pidS1 1000 0
  pidTxMaster := pidS1 1001 0x3F800000
  pidTyMaster := pidS1 1002 0x40000000
  pidTzMaster := pidS1 1003 0x40400000
  pidFzSlave := pidS1 1004 0x40800000
  pidTxSlave := pidS1 1005 0x40A00000
  pidTySlave := pidS1 1006 0x40C00000
  pidTzSlave := pidS1 1007 0x40E00000
  motorOut := #v[100, 200, 300, 400, 500, 600, 700, 800]
  kineAngle := ⟨0x3DCCCCCD, 0x3E4CCCCD, 0x3E99999A⟩
  kineRate := ⟨0, 0, 0⟩
  kineAltitude := 0x3FC00000
  loopCount := 123456

/-- S0 with S1 as the live system's values. -/
def liveS1 : State := { State.reset with env := { State.reset.env with live := snapS1 } }

/-- A State frame in progress with an effective mask, `ts = 1000` and snapshot S1. -/
def emitting (eff : Word) (cap : Nat) : State :=
  { writing cap State.reset with tel := ⟨eff, 1000, snapS1⟩ }

/-! ### Well-formedness: one ill-formed term for each check -/

/-- Any byte sequence of `2 ^ 32` bytes or more is refused, wherever a length is written down. -/
theorem test_wf_too_long (bs : List Byte) (h : bs.length = 2 ^ 32) :
    (Instr.encode bs).wf = false ∧ (Instr.decode bs 0).wf = false ∧ (Instr.append bs).wf = false ∧
      (Instr.fromString bs).wf = false := by
  simp [Instr.wf, fits32, h]

/-- There is such a sequence. -/
theorem test_wf_too_long_exists : ∃ bs : List Byte, bs.length = 2 ^ 32 :=
  ⟨List.replicate (2 ^ 32) 0#8, List.length_replicate⟩

theorem test_wf_decode_capacity : (Instr.decode [] (2 ^ 32)).wf = false := by decide

theorem test_wf_parse_too_many (ts : List FieldType) (h : ts.length = 2 ^ 32) :
    (Instr.parseInto ts).wf = false := by
  simp [Instr.wf, fits32, h]

theorem test_wf_parse_size : (Instr.parseInto [.bytes (2 ^ 32)]).wf = false := by decide

theorem test_wf_accepts : (Instr.decode [1, 2] 10).wf = true ∧ Instr.reset.wf = true := by decide

/-! ### The constraints of R5: the assignment at reset meets them, and each refuses a broken one -/

theorem test_params_wf : Config.params.wf = true := by decide +kernel

theorem test_params_constraints :
    ({ Config.params with typeState := 0 } : Params).wf1 = false ∧
    ({ Config.params with cmdBit := List.range 23 ++ [5] } : Params).wf2 = false ∧
    ({ Config.params with cmdBit := List.range 23 ++ [32] } : Params).wf2 = false ∧
    ({ Config.params with escByte := 0 } : Params).wf3 = false ∧
    ({ Config.params with escXor := 0x7D } : Params).wf3 = false ∧
    ({ Config.params with capRx := 45 } : Params).wf4 = false ∧
    ({ Config.params with capLarge := 49 } : Params).wf5 = false ∧
    ({ Config.params with capSmall := 11 } : Params).wf6 = false ∧
    ({ Config.params with capLarge := 338 } : Params).wf7 = false ∧
    ({ Config.params with cfgDefault := [] } : Params).wf8 = false ∧
    ({ Config.params with cfgDefault := recordBad } : Params).wf8 = false ∧
    ({ Config.params with
        telemetryFields := [⟨3, .field .v0, 2⟩, ⟨3, .field .i0, 2⟩] } : Params).wf9 = false ∧
    ({ Config.params with telemetryFields := [⟨32, .field .v0, 2⟩] } : Params).wf9 = false ∧
    ({ Config.params with nameCap := 0 } : Params).wf10 = false ∧
    ({ Config.params with nameCap := 5 } : Params).wfName = false ∧
    ({ Config.params with nameCap := 10 } : Params).wfName = false ∧
    ({ Config.params with cfgSize := [3, 2, 2, 2, 1, 2, 0] } : Params).wf10 = false ∧
    ({ Config.params with subBit := [0, 1, 2, 3, 4, 5, 6, 7, 7] } : Params).wf11 = false ∧
    ({ Config.params with subBit := [0, 1, 2, 3, 4, 5, 6, 7, 16] } : Params).wf11 = false := by
  decide +kernel

theorem test_params_boundaries :
    ({ Config.params with capRx := 46 } : Params).wf4 = true ∧
    ({ Config.params with capLarge := 50 } : Params).wf5 = true ∧
    ({ Config.params with capSmall := 12 } : Params).wf6 = true ∧
    ({ Config.params with capLarge := 339 } : Params).wf7 = true ∧
    ({ Config.params with nameCap := 20 } : Params).wfName = true := by
  decide +kernel

theorem test_record_layout :
    SubField.all.map Config.params.cfgOff = [0, 3, 5, 7, 9, 10, 12, 13, 29] ∧
      Config.params.cfgTotal = 38 ∧ Config.params.motorAll = 0x1FE0 := by
  decide +kernel

/-! ### Decoding: words written out from R78, R80, R84, R88 -/

theorem test_decode_cmd_1 :
    Sys2Proof.decode .cmd [0x01, 0x00, 0x00, 0x00] = .ok .reqResponse ∧
    Sys2Proof.decode .cmd [0x02, 0x00, 0x00, 0x00] = .ok .setEepromData ∧
    Sys2Proof.decode .cmd [0x04, 0x00, 0x00, 0x00] = .ok .reinitEepromData ∧
    Sys2Proof.decode .cmd [0x08, 0x00, 0x00, 0x00] = .ok .reqEepromData ∧
    Sys2Proof.decode .cmd [0x10, 0x00, 0x00, 0x00] = .ok .reqEnableIteration ∧
    Sys2Proof.decode .cmd [0x20, 0x00, 0x00, 0x00] = .ok .motorOverrideSpeed0 ∧
    Sys2Proof.decode .cmd [0x40, 0x00, 0x00, 0x00] = .ok .motorOverrideSpeed1 ∧
    Sys2Proof.decode .cmd [0x80, 0x00, 0x00, 0x00] = .ok .motorOverrideSpeed2 ∧
    Sys2Proof.decode .cmd [0x00, 0x01, 0x00, 0x00] = .ok .motorOverrideSpeed3 ∧
    Sys2Proof.decode .cmd [0x00, 0x02, 0x00, 0x00] = .ok .motorOverrideSpeed4 ∧
    Sys2Proof.decode .cmd [0x00, 0x04, 0x00, 0x00] = .ok .motorOverrideSpeed5 ∧
    Sys2Proof.decode .cmd [0x00, 0x08, 0x00, 0x00] = .ok .motorOverrideSpeed6 := by
  decide +kernel

theorem test_decode_cmd_2 :
    Sys2Proof.decode .cmd [0x00, 0x10, 0x00, 0x00] = .ok .motorOverrideSpeed7 ∧
    Sys2Proof.decode .cmd [0x00, 0x20, 0x00, 0x00] = .ok .setCommandOverride ∧
    Sys2Proof.decode .cmd [0x00, 0x40, 0x00, 0x00] = .ok .setStateMask ∧
    Sys2Proof.decode .cmd [0x00, 0x80, 0x00, 0x00] = .ok .setStateDelay ∧
    Sys2Proof.decode .cmd [0x00, 0x00, 0x01, 0x00] = .ok .setSdWriteDelay ∧
    Sys2Proof.decode .cmd [0x00, 0x00, 0x02, 0x00] = .ok .setLed ∧
    Sys2Proof.decode .cmd [0x00, 0x00, 0x04, 0x00] = .ok .setSerialRc ∧
    Sys2Proof.decode .cmd [0x00, 0x00, 0x08, 0x00] = .ok .setCardRecording ∧
    Sys2Proof.decode .cmd [0x00, 0x00, 0x10, 0x00] = .ok .setPartialEepromData ∧
    Sys2Proof.decode .cmd [0x00, 0x00, 0x20, 0x00] = .ok .reinitPartialEepromData ∧
    Sys2Proof.decode .cmd [0x00, 0x00, 0x40, 0x00] = .ok .reqPartialEepromData ∧
    Sys2Proof.decode .cmd [0x00, 0x00, 0x80, 0x00] = .ok .reqCardRecordingState := by
  decide +kernel

theorem test_decode_sub :
    Sys2Proof.decode .sub [0x01, 0x00, 0x00] = .ok (.version .parse) ∧
    Sys2Proof.decode .sub [0x02, 0x00, 0x01] = .ok (.pcb .reset) ∧
    Sys2Proof.decode .sub [0x04, 0x00, 0x02] = .ok (.mixTable .write) ∧
    Sys2Proof.decode .sub [0x08, 0x00, 0x00] = .ok (.magBias .parse) ∧
    Sys2Proof.decode .sub [0x10, 0x00, 0x01] = .ok (.channel .reset) ∧
    Sys2Proof.decode .sub [0x20, 0x00, 0x02] = .ok (.pidParameters .write) ∧
    Sys2Proof.decode .sub [0x40, 0x00, 0x00] = .ok (.stateParameters .parse) ∧
    Sys2Proof.decode .sub [0x80, 0x00, 0x01] = .ok (.ledStates .reset) ∧
    Sys2Proof.decode .sub [0x00, 0x01, 0x02] = .ok (.deviceName .write) := by
  decide +kernel

theorem test_decode_state_1 :
    Sys2Proof.decode .state [0x01, 0x00, 0x00, 0x00] = .ok .micros ∧
    Sys2Proof.decode .state [0x02, 0x00, 0x00, 0x00] = .ok .status ∧
    Sys2Proof.decode .state [0x04, 0x00, 0x00, 0x00] = .ok .v0 ∧
    Sys2Proof.decode .state [0x08, 0x00, 0x00, 0x00] = .ok .i0 ∧
    Sys2Proof.decode .state [0x10, 0x00, 0x00, 0x00] = .ok .i1 ∧
    Sys2Proof.decode .state [0x20, 0x00, 0x00, 0x00] = .ok .accel ∧
    Sys2Proof.decode .state [0x40, 0x00, 0x00, 0x00] = .ok .gyro ∧
    Sys2Proof.decode .state [0x80, 0x00, 0x00, 0x00] = .ok .mag ∧
    Sys2Proof.decode .state [0x00, 0x01, 0x00, 0x00] = .ok .temperature ∧
    Sys2Proof.decode .state [0x00, 0x02, 0x00, 0x00] = .ok .pressure ∧
    Sys2Proof.decode .state [0x00, 0x04, 0x00, 0x00] = .ok .rxPpm ∧
    Sys2Proof.decode .state [0x00, 0x08, 0x00, 0x00] = .ok .auxChanMask ∧
    Sys2Proof.decode .state [0x00, 0x10, 0x00, 0x00] = .ok .commands ∧
    Sys2Proof.decode .state [0x00, 0x20, 0x00, 0x00] = .ok .fAndT := by
  decide +kernel

theorem test_decode_state_2 :
    Sys2Proof.decode .state [0x00, 0x80, 0x00, 0x00] = .ok .pidFzMaster ∧
    Sys2Proof.decode .state [0x00, 0x00, 0x01, 0x00] = .ok .pidTxMaster ∧
    Sys2Proof.decode .state [0x00, 0x00, 0x02, 0x00] = .ok .pidTyMaster ∧
    Sys2Proof.decode .state [0x00, 0x00, 0x04, 0x00] = .ok .pidTzMaster ∧
    Sys2Proof.decode .state [0x00, 0x00, 0x08, 0x00] = .ok .pidFzSlave ∧
    Sys2Proof.decode .state [0x00, 0x00, 0x10, 0x00] = .ok .pidTxSlave ∧
    Sys2Proof.decode .state [0x00, 0x00, 0x20, 0x00] = .ok .pidTySlave ∧
    Sys2Proof.decode .state [0x00, 0x00, 0x40, 0x00] = .ok .pidTzSlave ∧
    Sys2Proof.decode .state [0x00, 0x00, 0x80, 0x00] = .ok .motorOut ∧
    Sys2Proof.decode .state [0x00, 0x00, 0x00, 0x01] = .ok .kineAngle ∧
    Sys2Proof.decode .state [0x00, 0x00, 0x00, 0x02] = .ok .kineRate ∧
    Sys2Proof.decode .state [0x00, 0x00, 0x00, 0x04] = .ok .kineAltitude ∧
    Sys2Proof.decode .state [0x00, 0x00, 0x00, 0x08] = .ok .loopCount := by
  decide +kernel

theorem test_decode_hdr :
    Sys2Proof.decode .hdr [0x00, 0x00, 0x00, 0x00] = .ok .typeCommand ∧
    Sys2Proof.decode .hdr [0x01, 0x00, 0x00, 0x00] = .ok .typeState ∧
    Sys2Proof.decode .hdr [0x02, 0x00, 0x00, 0x00] = .ok .typeResponse := by
  decide +kernel

/-- The bytes of the OP rows are the model's own (notes/assumptions/8.md). -/
theorem test_decode_op_1 :
    Sys2Proof.decode .op [0x00, 0x02, 0x00, 0x00, 0x00, 0x7D, 0x00] = .ok (.encode [0x7D, 0x00]) ∧
    Sys2Proof.decode .op [0x01, 0x02, 0x00, 0x00, 0x00, 0x7D, 0x5D, 0x0A, 0x00, 0x00, 0x00] =
      .ok (.decode [0x7D, 0x5D] 10) ∧
    Sys2Proof.decode .op [0x02, 0xFF] = .ok (.rxByte 0xFF) ∧
    Sys2Proof.decode .op [0x03] = .ok .process ∧
    Sys2Proof.decode .op [0x04, 0xE8, 0x03, 0x00, 0x00, 0x02, 0x08, 0x00, 0x00, 0x01] =
      .ok (.emit 1000 0x802 true) ∧
    Sys2Proof.decode .op [0x05] = .ok .reset ∧
    Sys2Proof.decode .op [0x06, 0x02, 0x00, 0x00, 0x00, 0x02, 0x08, 0x03, 0x00, 0x00, 0x00] =
      .ok (.parseInto [.u16, .bytes 3]) ∧
    Sys2Proof.decode .op [0x07, 0x01, 0x00, 0x00, 0x00, 0x2A] = .ok (.append [0x2A]) ∧
    Sys2Proof.decode .op [0x08, 0x02, 0x00, 0x00, 0x00, 0x03, 0x00, 0x00, 0x00, 0x00] =
      .ok (.beginFrame .small 2 3) ∧
    Sys2Proof.decode .op [0x09, 0x01] = .ok (.send .log) := by
  decide +kernel

theorem test_decode_op_2 :
    Sys2Proof.decode .op [0x0A] = .ok .verify ∧
    Sys2Proof.decode .op [0x0B, 0x02, 0x00, 0x00, 0x00, 0x41, 0x42] = .ok (.fromString [0x41, 0x42]) ∧
    Sys2Proof.decode .op [0x0C] = .ok .readFull ∧
    Sys2Proof.decode .op [0x0D] = .ok .writeFull ∧
    Sys2Proof.decode .op [0x0E, 0x81, 0x01, 0x09, 0x00] = .ok (.writePartial 0x0181 0x0009) ∧
    Sys2Proof.decode .op [0x0F, 0x04, 0x00] = .ok (.parsePartial 4) ∧
    Sys2Proof.decode .op [0x10, 0x82, 0x00] = .ok (.resetPartial 0x82) ∧
    Sys2Proof.decode .op [0x11] = .ok .configValid ∧
    Sys2Proof.decode .op [0x12] = .ok .commit ∧
    Sys2Proof.decode .op [0x13, 0x02, 0x08, 0x00, 0x00] = .ok (.stateLen 0x802) := by
  decide +kernel

theorem test_decode_refuses :
    Sys2Proof.decode .cmd [1, 0, 0] = .error .wordLength ∧
    Sys2Proof.decode .cmd [0, 0, 0, 0xFF] = .error .selectsNothing ∧
    Sys2Proof.decode .state [0, 0x40, 0, 0xF0] = .error .selectsNothing ∧
    Sys2Proof.decode .sub [0, 0xFE, 0] = .error .selectsNothing ∧
    Sys2Proof.decode .sub [1, 0, 3] = .error .unknownWalk ∧
    Sys2Proof.decode .hdr [0, 1, 0, 0] = .error .unknownTag ∧
    Sys2Proof.decode .op [20] = .error .unknownOperation ∧
    Sys2Proof.decode .op [2] = .error .badOperands := by
  decide +kernel

/-- R99: several rows of one word, in ascending order (the Response last, R80). -/
theorem test_decode_rows_in_order :
    decodeAll .cmd [0x21, 0x01, 0x00, 0x00] =
        .ok [.motorOverrideSpeed0, .motorOverrideSpeed3, .reqResponse] ∧
      decodeAll .sub [0x81, 0xFF, 0x00] = .ok [.version .parse, .ledStates .parse, .deviceName .parse] := by
  decide +kernel

/-- Bare table words: a submask, an operation past the tags, a State bit that no operation has, a tag. -/
theorem test_table_words :
    decodeTableWord 16 0x0100 = some (.deviceName .parse) ∧
    decodeTableWord 32 0x00800000 = some .reqCardRecordingState ∧
    decodeTableWord 32 0x08000000 = some .loopCount ∧
    decodeTableWord 32 0x00000002 = some .typeResponse ∧
    decodeTableWord 32 0x80000000 = none := by
  decide +kernel

/-- A bare word is the very next instruction, and it runs to a next state. -/
theorem test_fetch_word :
    ([(16, 0x0100), (16, 0x0080), (32, 0x00000004), (32, 0x00002000), (32, 0x00800000),
      (32, 0x01000000), (32, 0x08000000), (32, 0x00000000), (32, 0x00000002)].all fun r =>
        nextIs (step (State.reset.withFetchWord r.1 r.2)) fun t => t.stimuli == []) = true := by
  decide +kernel

theorem test_step_runs_decoded :
    nextIs (step (State.reset.withFetchWord 32 0x00002000)) (fun t =>
      t.out.trace == [.setCommandOverride [.u8 0]] && t.disp.ack == 0x2000) = true := by
  decide +kernel

/-- With nothing offered the block is idle (R321). -/
theorem test_step_idle : step State.reset = .next State.reset := by rfl

/-! ### Frame Codec (sections 2 and 3 of 95_test_vectors.md) -/

theorem test_encode_esc :
    encodeFrame Config.params [] = [0x00] ∧
    encodeFrame Config.params [0x01, 0x02, 0x03] = [0x01, 0x02, 0x03, 0x00] ∧
    encodeFrame Config.params [0x00] = [0x7D, 0x20, 0x00] ∧
    encodeFrame Config.params [0x7D] = [0x7D, 0x5D, 0x00] ∧
    encodeFrame Config.params [0x00, 0x7D, 0x20, 0x5D] = [0x7D, 0x20, 0x7D, 0x5D, 0x20, 0x5D, 0x00] ∧
    encodeFrame Config.params [0x7D, 0x7D] = [0x7D, 0x5D, 0x7D, 0x5D, 0x00] ∧
    encodeFrame Config.params [0x00, 0x01, 0x7D, 0x02] = [0x7D, 0x20, 0x01, 0x7D, 0x5D, 0x02, 0x00] := by
  decide +kernel

theorem test_decode_esc :
    decodeFrame Config.params [] 1000 = some [] ∧
    decodeFrame Config.params [0x7D, 0x20, 0x01, 0x7D, 0x5D, 0x02] 1000 = some [0x00, 0x01, 0x7D, 0x02] ∧
    decodeFrame Config.params [0x01, 0x7D] 1000 = none ∧
    decodeFrame Config.params [0x7D, 0x41] 1000 = none ∧
    decodeFrame Config.params [0x7D, 0x7D] 1000 = none ∧
    decodeFrame Config.params [0x01, 0x02, 0x03, 0x04] 4 = some [0x01, 0x02, 0x03, 0x04] ∧
    decodeFrame Config.params [0x01, 0x02, 0x03, 0x04, 0x05] 4 = none ∧
    decodeFrame Config.params [0x7D, 0x20, 0x7D, 0x20, 0x7D, 0x20, 0x7D, 0x20, 0x05] 4 = none := by
  decide +kernel

theorem test_decode_esc_lenient :
    decodeEsc { Config.params with decodeStrict := false } [0x7D, 0x41] 1000 = some [0x61] ∧
      decodeEsc { Config.params with decodeStrict := false } [0x7D, 0x7D] 1000 = some [0x5D] := by
  decide +kernel

/-- The default parameters with the other codec. -/
def cobsParams : Params := { Config.params with codecAlg := .cobs }

theorem test_encode_cobs :
    encodeFrame cobsParams [] = [0x01, 0x00] ∧
    encodeFrame cobsParams [0x00] = [0x01, 0x01, 0x00] ∧
    encodeFrame cobsParams [0x00, 0x00] = [0x01, 0x01, 0x01, 0x00] ∧
    encodeFrame cobsParams [0x7D] = [0x02, 0x7D, 0x00] ∧
    encodeFrame cobsParams [0x11, 0x22, 0x00, 0x33] = [0x03, 0x11, 0x22, 0x02, 0x33, 0x00] ∧
    encodeFrame cobsParams [0x11, 0x00, 0x00, 0x00] = [0x02, 0x11, 0x01, 0x01, 0x01, 0x00] ∧
    encodeFrame cobsParams [0x11, 0x22, 0x33, 0x44] = [0x05, 0x11, 0x22, 0x33, 0x44, 0x00] := by
  decide +kernel

theorem test_encode_cobs_blocks :
    encodeFrame cobsParams (List.replicate 253 1) = [0xFE] ++ List.replicate 253 1 ++ [0] ∧
    encodeFrame cobsParams (List.replicate 254 1) = [0xFF] ++ List.replicate 254 1 ++ [0] ∧
    encodeFrame cobsParams (List.replicate 255 1) = [0xFF] ++ List.replicate 254 1 ++ [2, 1, 0] ∧
    encodeFrame cobsParams (List.replicate 254 1 ++ [0]) =
      [0xFF] ++ List.replicate 254 1 ++ [1, 1, 0] := by
  decide +kernel

theorem test_decode_cobs :
    decodeFrame cobsParams [] 1000 = none ∧
    decodeFrame cobsParams [0x01] 1000 = some [] ∧
    decodeFrame cobsParams [0x01, 0x01] 1000 = some [0x00] ∧
    decodeFrame cobsParams [0x03, 0x11, 0x22, 0x02, 0x33] 1000 = some [0x11, 0x22, 0x00, 0x33] ∧
    decodeFrame cobsParams [0x02, 0x11, 0x01, 0x01, 0x01] 1000 = some [0x11, 0x00, 0x00, 0x00] ∧
    decodeFrame cobsParams [0x05, 0x11] 1000 = none ∧
    decodeFrame cobsParams [0x03, 0x11, 0x22, 0x02, 0x33] 3 = none := by
  decide +kernel

theorem test_encode_row :
    nextIs (exec (.encode [0x00]) State.reset) (fun t => t.out.result == .bytes [0x7D, 0x20, 0x00]) =
      true := by
  decide +kernel

theorem test_decode_row :
    nextIs (exec (.decode [0x7D, 0x41] 1000) State.reset) (fun t => t.out.result == .fail) = true := by
  decide +kernel

/-- `7D 41 00`: the terminator raises `E_FRAME` and the frame is gone. -/
theorem test_rx_byte_bad_frame :
    nextIs (exec (.rxByte 0) { State.reset with
        rx := ⟨[0x7D, 0x41], [], false, true, []⟩ }) (fun t =>
      t.out.trace == [.raised .frame (.frame [0x7D, 0x41])] && t.rx == Framer.reset) = true := by
  decide +kernel

/-- `7D` then `5D`: both forms of the framer. -/
theorem test_rx_byte_escape :
    nextIs (exec (.rxByte 0x5D) { State.reset with rx := ⟨[0x7D], [], true, false, []⟩ }) (fun t =>
      t.rx == ⟨[0x7D, 0x5D], [0x7D], false, false, []⟩) = true := by
  decide +kernel

/-! ### Field Reader and Field Writer (section 4) -/

/-- The reader of section 4. -/
def reader4 (pos : Nat) : State :=
  { inFrame 0 [0x34, 0x12, 0xFF, 0x78, 0x56, 0x34, 0x12] with
    rd := { (inFrame 0 [0x34, 0x12, 0xFF, 0x78, 0x56, 0x34, 0x12]).rd with pos := pos } }

theorem test_parse_into :
    nextIs (exec (.parseInto [.u16, .u8]) (reader4 0)) (fun t =>
      t.out.result == .tuple [.u16 0x1234, .u8 0xFF] && t.rd.pos == 3) = true := by
  decide +kernel

theorem test_parse_into_short :
    nextIs (exec (.parseInto [.u32, .u8]) (reader4 3)) (fun t =>
      t.out.result == .fail && t.rd.pos == 3) = true := by
  decide +kernel

/-- The writer of section 4 after `Append(01 02 03)`. -/
def writer4 : State :=
  { State.reset with wr := ⟨Memory.empty.writeBytes 0 [1, 2, 3], 3, 4, false, .idle⟩ }

theorem test_append_full :
    nextIs (exec (.append [4, 5]) writer4) (fun t =>
      t.out.result == .fail && t.wr == { writer4.wr with ovf := true }) = true := by
  decide +kernel

theorem test_append_fits :
    nextIs (exec (.append [9]) writer4) (fun t =>
      t.out.result == .ok && frameBytes t == [1, 2, 3, 9]) = true := by
  decide +kernel

theorem test_begin_frame :
    nextIs (exec (.beginFrame .small 2 0x121) writer4) (fun t =>
      frameBytes t == [2, 0, 0, 0, 0x21, 1, 0, 0] && t.wr.cap == 20) = true := by
  decide +kernel

theorem test_send_overflowed :
    nextIs (exec (.send .wire) { writer4 with wr := { writer4.wr with ovf := true } }) (fun t =>
      t.out.trace == [.raised .overflow .send] && t.out.wire == []) = true := by
  decide +kernel

theorem test_send_log :
    nextIs (exec (.send .log) writer4) (fun t => t.out.log == [1, 2, 3, 0] && t.out.wire == []) =
      true := by
  decide +kernel

/-! ### Name Validator (sections 1 T5 and 5) -/

theorem test_names :
    ([0x30, 0x39, 0x41, 0x5A, 0x61, 0x7A, 0x20, 0x5F, 0x2D].all legalChar &&
      [0x2F, 0x3A, 0x40, 0x5B, 0x60, 0x7B, 0x2E, 0x2C, 0x21, 0x01, 0x09, 0x7F, 0x80, 0xC3, 0xFF, 0x00].all
        fun c => !legalChar c) = true ∧
    verifyName [0x41, 0x00, 0x21, 0xFF, 0, 0, 0, 0, 0] = true ∧
    verifyName (List.replicate 9 0x41) = false ∧ verifyName (List.replicate 9 0) = true ∧
    verifyName [0x62, 0x61, 0x64, 0x21, 0x6E, 0x61, 0x6D, 0x65, 0x00] = false := by
  decide +kernel

/-- "My_Drone-1" does not fit nine bytes: no terminator. -/
theorem test_from_string :
    nextIs (exec (.fromString [0x4D, 0x79, 0x5F, 0x44, 0x72, 0x6F, 0x6E, 0x65, 0x2D, 0x31]) State.reset)
      (fun t => t.out.result == .bytes [0x4D, 0x79, 0x5F, 0x44, 0x72, 0x6F, 0x6E, 0x65, 0x2D]) = true := by
  decide +kernel

theorem test_verify :
    nextIs (exec .verify (inRecord 0 true [])) (fun t => t.out.result == .flag true) = true := by
  decide +kernel

/-! ### Configuration Record -/

theorem test_read_full :
    nextIs (exec .readFull (inFrame 0 recordN1)) (fun t =>
      t.wcfgRecord == recordN1 && t.rd.pos == 38 && t.out.result == .ok) = true := by
  decide +kernel

theorem test_write_full :
    nextIs (exec .writeFull (writing 38 (inRecord 0 true []))) (fun t =>
      frameBytes t == Config.testRecord) = true := by
  decide +kernel

/-- The body of section 6.3 row 16. -/
theorem test_write_partial :
    nextIs (exec (.writePartial 0x0181 0x0009) (writing 20 (inRecord 0 true []))) (fun t =>
      frameBytes t == [0x81, 0x01, 0x01, 0x02, 0x03, 0x09, 0x00, 0xB0, 0xB3, 0x46, 0x4C, 0x59, 0, 0, 0, 0,
        0, 0] && !t.wr.ovf) = true := by
  decide +kernel

/-- The body of section 6.3 row 9. -/
theorem test_parse_partial :
    nextIs (exec (.parsePartial 0x0180) (inRecord 0 false
        [0x01, 0x80, 0xE0, 0xEF, 0x5A, 0x65, 0x64, 0, 0, 0, 0, 0, 0])) (fun t =>
      t.disp.ok && t.wcfgRecord == Config.testRecord.take 13 ++ [0xE0] ++
        (Config.testRecord.drop 14).take 14 ++ [0xEF, 0x5A, 0x65, 0x64, 0, 0, 0, 0, 0, 0]) = true := by
  decide +kernel

/-- The body of section 6.3 row 14. -/
theorem test_reset_partial :
    nextIs (exec (.resetPartial 0x0082) (inRecord 0 false [0x06, 0x00])) (fun t =>
      t.disp.ok && t.wcfgRecord == Config.testRecord.take 3 ++ [0x10, 0x11] ++
        (Config.testRecord.drop 5).take 9 ++ [0xA1, 0xA2] ++ Config.testRecord.drop 16) = true := by
  decide +kernel

theorem test_config_valid :
    nextIs (exec .configValid { inRecord 0 true [] with disp := { (inRecord 0 true []).disp with
        wcfg := Memory.empty.writeBytes 0 recordBad } }) (fun t => t.out.result == .flag false) = true := by
  decide +kernel

/-- A failed store: applied, not rolled back (section 6.3 row 4). -/
theorem test_commit_err :
    nextIs (exec .commit { inRecord 0 true [] with
        disp := { (inRecord 0 true []).disp with wcfg := Memory.empty.writeBytes 0 recordN1 },
        env := { State.reset.env with storeAnswers := [.err none] } }) (fun t =>
      t.out.trace == [.applyConfig recordN1, .storageWrite recordN1 false,
          .raised .collab .commit] &&
        t.env.liveCfg == recordN1 && t.env.persist == Config.testRecord && t.out.result == .fail) =
      true := by
  decide +kernel

/-- Offset and bytes of each sub-field row of `ParsePartial`: the payload is `77 77 ...`. -/
theorem test_sub_rows_parse :
    ([(SubField.version, 0, 3), (.pcb, 3, 2), (.mixTable, 5, 2), (.magBias, 7, 2), (.channel, 9, 1),
      (.pidParameters, 10, 2), (.stateParameters, 12, 1), (.deviceName, 29, 9)].all fun r =>
        nextIs (exec (r.1.instr .parse) (inRecord 0x01FF true (List.replicate 9 0x77))) fun t =>
          t.rd.pos == r.2.2 && t.wcfgRecord == Config.testRecord.take r.2.1 ++
            List.replicate r.2.2 0x77 ++ Config.testRecord.drop (r.2.1 + r.2.2)) = true := by
  decide +kernel

theorem test_sub_rows_reset :
    ([(SubField.version, 0, 3), (.pcb, 3, 2), (.mixTable, 5, 2), (.magBias, 7, 2), (.channel, 9, 1),
      (.pidParameters, 10, 2), (.stateParameters, 12, 1), (.deviceName, 29, 9)].all fun r =>
        nextIs (exec (r.1.instr .reset) (inRecord 0x01FF true [])) fun t =>
          t.wcfgRecord == Config.testRecord.take r.2.1 ++
            (Config.testDefault.drop r.2.1).take r.2.2 ++ Config.testRecord.drop (r.2.1 + r.2.2)) =
      true := by
  decide +kernel

/-- LED entries 1 and 2 from the payload; the sub-submask comes first. -/
theorem test_led_states_parse :
    nextIs (exec (.ledStates .parse) (inRecord 0x0080 true [0x06, 0x00, 0xE1, 0xE2, 0x99])) (fun t =>
      t.rd.pos == 4 && t.disp.ledsub == 6 && t.wcfgRecord == Config.testRecord.take 14 ++ [0xE1, 0xE2] ++
        Config.testRecord.drop 16) = true := by
  decide +kernel

/-- The device-name is parsed after a failure (R176 (b)); version is not. -/
theorem test_device_name_after_failure :
    nextIs (exec (.deviceName .parse) (inRecord 0x0101 false (List.replicate 9 0x41))) (fun t =>
        t.rd.pos == 9 && !t.disp.ok) = true ∧
      nextIs (exec (.version .parse) (inRecord 0x0101 false (List.replicate 9 0x41))) (fun t =>
        t == inRecord 0x0101 false (List.replicate 9 0x41)) = true := by
  decide +kernel

/-! ### CMD rows (sections 6.2 and 6.3), one slot each -/

theorem test_set_eeprom_data :
    nextIs (exec .setEepromData (inFrame 0x3 recordN1)) (fun t =>
      t.env.persist == recordN1 && t.env.liveCfg == recordN1 && t.disp.ack == 2 &&
        t.out.trace == [.applyConfig recordN1, .storageWrite recordN1 true]) = true := by
  decide +kernel

theorem test_set_eeprom_data_invalid :
    nextIs (exec .setEepromData (inFrame 0x3 recordBad)) (fun t =>
      t.env == State.reset.env && t.disp.ack == 0 && t.disp.m == 3 &&
        t.out.trace == [.raised .valid (.op .setEepromData)]) = true := by
  decide +kernel

theorem test_reinit_eeprom_data :
    nextIs (exec .reinitEepromData (inFrame 0x5 [])) (fun t =>
      t.env.persist == Config.testDefault && t.env.liveCfg == Config.testDefault &&
        t.disp.ack == 4) = true := by
  decide +kernel

theorem test_req_eeprom_data :
    nextIs (exec .reqEepromData (inFrame 0x9 [])) (fun t =>
      frameBytes t == [0, 0, 0, 0, 2, 0, 0, 0] ++ Config.testRecord && t.out.wire.length == 60 &&
        t.disp.ack == 8) = true := by
  decide +kernel

theorem test_req_enable_iteration :
    nextIs (exec .reqEnableIteration (inFrame 0x11 [1])) (fun t =>
      t.out.trace == [.motorEnableIteration [.u8 1]] && t.disp.ack == 0x10 && t.rd.pos == 1) = true := by
  decide +kernel

theorem test_req_enable_iteration_short :
    nextIs (exec .reqEnableIteration (inFrame 0x11 [])) (fun t =>
      t.out.trace == [.raised .parse (.op .reqEnableIteration)] && t.disp.ack == 0) = true := by
  decide +kernel

/-- Speeds 100 to 800 (section 6.2 row 3), one slot each. -/
theorem test_motor_override_speeds :
    ((List.finRange 8).all fun i =>
      nextIs (exec (CmdOp.motor i).instr (inFrame 0x1FE1 (le2 (BitVec.ofNat 16 (100 * (i.val + 1))))))
        fun t => t.out.trace == [.setMotorOut i (BitVec.ofNat 16 (100 * (i.val + 1)))] &&
          t.disp.ack == oneBit (5 + i.val) && t.disp.seq.val == 4 + i.val &&
          t.env.live.motorOut.toList ==
            (List.replicate 8 0#16).set i.val (BitVec.ofNat 16 (100 * (i.val + 1)))) = true := by
  decide +kernel

theorem test_set_command_override :
    nextIs (exec .setCommandOverride (inFrame 0x2001 [1])) (fun t =>
      t.out.trace == [.setCommandOverride [.u8 1]] && t.disp.ack == 0x2000) = true := by
  decide +kernel

theorem test_set_state_mask :
    nextIs (exec .setStateMask (inFrame 0x4001 [0x21, 0x00, 0x80, 0x00])) (fun t =>
      t.ctl == ⟨0x00800021, 0, 0⟩ && t.disp.ack == 0x4000) = true := by
  decide +kernel

theorem test_set_state_delay :
    nextIs (exec .setStateDelay (inFrame 0x8001 [0x32, 0x00])) (fun t =>
      t.ctl == ⟨0, 50, 0⟩ && t.disp.ack == 0x8000) = true := by
  decide +kernel

theorem test_set_sd_write_delay :
    nextIs (exec .setSdWriteDelay (inFrame 0x10001 [0xFF, 0xFF])) (fun t =>
      t.ctl == ⟨0, 0, 65535⟩ && t.disp.ack == 0x10000) = true := by
  decide +kernel

theorem test_set_led :
    nextIs (exec .setLed (inFrame 0x20001 [0x01, 0xFF, 0x00, 0x00, 0x00, 0x00, 0xFF, 0x01, 0x00])) (fun t =>
      t.out.trace == [.setLed [.bytes [0x01, 0xFF, 0, 0, 0, 0, 0xFF, 0x01, 0x00]]] &&
        t.disp.ack == 0x20000) = true := by
  decide +kernel

theorem test_set_led_short :
    nextIs (exec .setLed (inFrame 0x20001 [0x01, 0xFF, 0x00, 0x00, 0x00, 0x00, 0xFF, 0x01])) (fun t =>
      t.out.trace == [.raised .parse (.op .setLed)] && t.disp.ack == 0 && t.rd.pos == 0) = true := by
  decide +kernel

theorem test_set_serial_rc :
    nextIs (exec .setSerialRc
      (inFrame 0x40001 [0x01, 0xE8, 0x03, 0xFF, 0xFF, 0x00, 0x00, 0x00, 0x80, 0x05])) (fun t =>
      t.out.trace == [.setSerialRc [.u8 1, .i16 0x03E8, .i16 0xFFFF, .i16 0, .i16 0x8000, .u8 5]] && t.disp.ack == 0x40000) = true := by
  decide +kernel

theorem test_set_card_recording_open :
    nextIs (exec .setCardRecording (inFrame 0x80001 [3])) (fun t =>
      t.out.trace == [.logSetLock false, .logOpen, .logSetLock true] && t.env.logOpen &&
        t.env.logLocked && t.disp.ack == 0x80000) = true := by
  decide +kernel

theorem test_set_card_recording_close :
    nextIs (exec .setCardRecording
      ({ inFrame 0x80001 [0xFC] with
        env := { State.reset.env with logOpen := true, logLocked := true } })) (fun t =>
      t.out.trace == [.logSetLock false, .logClose, .logSetLock false] && !t.env.logOpen &&
        !t.env.logLocked) = true := by
  decide +kernel

theorem test_set_partial_eeprom_data :
    nextIs (exec .setPartialEepromData (inFrame 0x100001 [0x04, 0x00, 0x77, 0x88])) (fun t =>
      t.env.persist == Config.testRecord.take 5 ++ [0x77, 0x88] ++ Config.testRecord.drop 7 &&
        t.env.liveCfg == t.env.persist && t.disp.ack == 0x100000) = true := by
  decide +kernel

theorem test_set_partial_eeprom_data_bad_name :
    nextIs (exec .setPartialEepromData
      (inFrame 0x100001 [0x00, 0x01, 0x6E, 0x6F, 0x2E, 0x64, 0x6F, 0x74, 0x73, 0x00, 0x00])) (fun t =>
      t.out.trace == [.storageRead, .raised .valid (.op .setPartialEepromData)] &&
        t.env == State.reset.env && t.disp.ack == 0) = true := by
  decide +kernel

theorem test_reinit_partial_eeprom_data :
    nextIs (exec .reinitPartialEepromData (inFrame 0x200001 [0x82, 0x00, 0x06, 0x00])) (fun t =>
      t.env.persist == Config.testRecord.take 3 ++ [0x10, 0x11] ++
        (Config.testRecord.drop 5).take 9 ++ [0xA1, 0xA2] ++ Config.testRecord.drop 16 &&
        t.disp.ack == 0x200000) = true := by
  decide +kernel

theorem test_reinit_partial_eeprom_data_short :
    nextIs (exec .reinitPartialEepromData (inFrame 0x200001 [0x82, 0x00])) (fun t =>
      t.out.trace == [.storageRead, .raised .parse (.op .reinitPartialEepromData)] &&
        t.env == State.reset.env && t.disp.ack == 0) = true := by
  decide +kernel

theorem test_req_partial_eeprom_data :
    nextIs (exec .reqPartialEepromData (inFrame 0x400000 [0x81, 0x01, 0x09, 0x00])) (fun t =>
      frameBytes t == [0, 0, 0, 0, 0, 0, 0x10, 0, 0x81, 0x01, 0x01, 0x02, 0x03, 0x09, 0x00, 0xB0,
        0xB3, 0x46, 0x4C, 0x59, 0, 0, 0, 0, 0, 0] && t.out.wire.length == 41) = true := by
  decide +kernel

theorem test_req_partial_eeprom_data_undefined_bits :
    nextIs (exec .reqPartialEepromData (inFrame 0x400001 [0x10, 0xFE])) (fun t =>
      frameBytes t == [0, 0, 0, 0, 0, 0, 0x10, 0, 0x10, 0xFE, 0x42] && t.disp.ack == 0x400000) = true := by
  decide +kernel

theorem test_req_card_recording_state :
    nextIs (exec .reqCardRecordingState
      ({ inFrame 0x800000 [] with
        ctl := ⟨0, 0, 0x1234⟩, env := { State.reset.env with logOpen := true } })) (fun t =>
      t.out.wire == [0x7D, 0x20, 0x7D, 0x20, 0x7D, 0x20, 0x7D, 0x20, 0x7D, 0x20, 0x7D, 0x20, 0x09,
        0x7D, 0x20, 0x34, 0x12, 0x01, 0x00] &&
      t.out.trace.take 2 == [.logIsOpen true, .logIsLocked false]) = true := by
  decide +kernel

theorem test_req_response :
    nextIs (exec .reqResponse
      ({ inFrame 0x121 [] with
        disp := { State.reset.disp with m := 0x121, ack := 0x20 } })) (fun t =>
      t.out.wire == [0x02, 0x7D, 0x20, 0x7D, 0x20, 0x7D, 0x20, 0x21, 0x01, 0x7D, 0x20, 0x7D, 0x20,
        0x20, 0x7D, 0x20, 0x7D, 0x20, 0x7D, 0x20, 0x00] && t.disp.ack == 0x20) = true := by
  decide +kernel

/-- Each row appends its field of S1, alone in a frame of exactly its width. -/
theorem test_telemetry_rows_1 :
    ([(0, TelField.micros, [0xE8, 0x03, 0x00, 0x00]),
      (1, .status, [0x01, 0x80]),
      (2, .v0, [0x45, 0x03]),
      (3, .i0, [0x10, 0x00]),
      (4, .i1, [0x00, 0x00]),
      (5, .accel, [0x00, 0x00, 0x00, 0x00, 0x00, 0x00, 0x00, 0x00, 0x00, 0x00, 0x80, 0x3F]),
      (6, .gyro, [0x00, 0x00, 0x80, 0xBF, 0x00, 0x00, 0x00, 0x3F, 0x00, 0x00, 0x00, 0x00]),
      (7, .mag, [0x00, 0x00, 0xC0, 0x7F, 0x00, 0x00, 0x00, 0x00, 0x00, 0x00, 0x00, 0x80]),
      (8, .temperature, [0xF6, 0x09]),
      (9, .pressure, [0x00, 0xCD, 0x8B, 0x01]),
      (10, .rxPpm, [0xDC, 0x05, 0xDC, 0x05, 0xE8, 0x03, 0xDC, 0x05, 0xFF, 0xFF, 0x00, 0x80]),
      (11, .auxChanMask, [0x05]),
      (12, .commands, [0xE8, 0x03, 0x00, 0x00, 0xFF, 0xFF, 0x01, 0x00]),
      (13, .fAndT, [0x00, 0x00, 0x80, 0x3F, 0x00, 0x00, 0x00, 0x00, 0x00, 0x00, 0x00, 0x00, 0x00,
        0x00, 0x00, 0x80])].all fun (r : Nat × TelField × List Byte) =>
        nextIs (exec r.2.1.instr (emitting (oneBit r.1) r.2.2.length)) fun t =>
          frameBytes t == r.2.2 && !t.wr.ovf) = true := by
  decide +kernel

/-- Each row appends its field of S1, alone in a frame of exactly its width. -/
theorem test_telemetry_rows_2 :
    ([(15, TelField.pidFzMaster,
        [0xE8, 0x03, 0x00, 0x00, 0x00, 0x00, 0x00, 0x00, 0x00, 0x00, 0x80, 0x3F, 0x00,
        0x00, 0x80, 0x3E, 0x00, 0x00, 0x00, 0x00, 0x00, 0x00, 0x80, 0xBE]),
      (16, .pidTxMaster,
        [0xE9, 0x03, 0x00, 0x00, 0x00, 0x00, 0x80, 0x3F, 0x00, 0x00, 0x80, 0x3F, 0x00,
        0x00, 0x80, 0x3E, 0x00, 0x00, 0x00, 0x00, 0x00, 0x00, 0x80, 0xBE]),
      (17, .pidTyMaster,
        [0xEA, 0x03, 0x00, 0x00, 0x00, 0x00, 0x00, 0x40, 0x00, 0x00, 0x80, 0x3F, 0x00,
        0x00, 0x80, 0x3E, 0x00, 0x00, 0x00, 0x00, 0x00, 0x00, 0x80, 0xBE]),
      (18, .pidTzMaster,
        [0xEB, 0x03, 0x00, 0x00, 0x00, 0x00, 0x40, 0x40, 0x00, 0x00, 0x80, 0x3F, 0x00,
        0x00, 0x80, 0x3E, 0x00, 0x00, 0x00, 0x00, 0x00, 0x00, 0x80, 0xBE]),
      (19, .pidFzSlave,
        [0xEC, 0x03, 0x00, 0x00, 0x00, 0x00, 0x80, 0x40, 0x00, 0x00, 0x80, 0x3F, 0x00,
        0x00, 0x80, 0x3E, 0x00, 0x00, 0x00, 0x00, 0x00, 0x00, 0x80, 0xBE]),
      (20, .pidTxSlave,
        [0xED, 0x03, 0x00, 0x00, 0x00, 0x00, 0xA0, 0x40, 0x00, 0x00, 0x80, 0x3F, 0x00,
        0x00, 0x80, 0x3E, 0x00, 0x00, 0x00, 0x00, 0x00, 0x00, 0x80, 0xBE]),
      (21, .pidTySlave,
        [0xEE, 0x03, 0x00, 0x00, 0x00, 0x00, 0xC0, 0x40, 0x00, 0x00, 0x80, 0x3F, 0x00,
        0x00, 0x80, 0x3E, 0x00, 0x00, 0x00, 0x00, 0x00, 0x00, 0x80, 0xBE]),
      (22, .pidTzSlave,
        [0xEF, 0x03, 0x00, 0x00, 0x00, 0x00, 0xE0, 0x40, 0x00, 0x00, 0x80, 0x3F, 0x00,
        0x00, 0x80, 0x3E, 0x00, 0x00, 0x00, 0x00, 0x00, 0x00, 0x80, 0xBE]),
      (23, .motorOut, [0x64, 0x00, 0xC8, 0x00, 0x2C, 0x01, 0x90, 0x01, 0xF4, 0x01, 0x58, 0x02, 0xBC,
        0x02, 0x20, 0x03]),
      (24, .kineAngle, [0xCD, 0xCC, 0xCC, 0x3D, 0xCD, 0xCC, 0x4C, 0x3E, 0x9A, 0x99, 0x99, 0x3E]),
      (25, .kineRate, [0x00, 0x00, 0x00, 0x00, 0x00, 0x00, 0x00, 0x00, 0x00, 0x00, 0x00, 0x00]),
      (26, .kineAltitude, [0x00, 0x00, 0xC0, 0x3F]),
      (27, .loopCount, [0x40, 0xE2, 0x01, 0x00])].all fun (r : Nat × TelField × List Byte) =>
        nextIs (exec r.2.1.instr (emitting (oneBit r.1) r.2.2.length)) fun t =>
          frameBytes t == r.2.2 && !t.wr.ovf) = true := by
  decide +kernel

/-- The default mask replaces zero (section 7 row 3). -/
theorem test_emit_default_mask :
    nextIs (exec (.emit 0x01020304 0 false) { liveS1 with ctl := ⟨3, 0, 0⟩ }) (fun t =>
      t.out.wire == [0x01, 0x7D, 0x20, 0x7D, 0x20, 0x7D, 0x20, 0x03, 0x7D, 0x20, 0x7D, 0x20, 0x7D, 0x20,
        0x04, 0x03, 0x02, 0x01, 0x01, 0x80, 0x00] && t.out.log == []) = true := by
  decide +kernel

/-- To an open log, and nowhere else (section 7 row 5). -/
theorem test_emit_log :
    nextIs (exec (.emit 5 0x802 true) { liveS1 with env := { liveS1.env with logOpen := true } }) (fun t =>
      t.out.log == [0x01, 0x7D, 0x20, 0x7D, 0x20, 0x7D, 0x20, 0x02, 0x08, 0x7D, 0x20, 0x7D, 0x20, 0x01,
        0x80, 0x05, 0x00] && t.out.wire == [] &&
        t.out.trace.take 2 == [.logIsOpen true, .snapshotTelemetry]) = true := by
  decide +kernel

/-- Section 7 row 11: every field, 524 bytes on the wire. -/
theorem test_emit_all_fields :
    nextIs (exec (.emit 0xFFFFFFFF 0x0FFFBFFF false) liveS1) (fun t =>
      t.wr.len == 339 && t.out.wire.length == 524) = true := by
  decide +kernel

/-- The table of T2. -/
theorem test_state_len :
    ([(0x00000000, 0), (0x00000001, 4), (0x00000802, 3), (0x000000E0, 36), (0x00001C00, 21),
      (0x00FF8000, 208), (0x80004000, 0), (0x0FFFBFFF, 331), (0xFFFFFFFF, 331)].all
        fun (r : Word × Nat) =>
          nextIs (exec (.stateLen r.1) State.reset) fun t => t.out.result == .count r.2) = true := by
  decide +kernel

/-! ### Values the spec leaves open, and other parameter assignments -/

/-- `DECODE` of a sequence with a terminator in it completes. -/
theorem test_decode_terminator : ∃ t, exec (.decode [1, 0] 10) State.reset = .next t := ⟨_, rfl⟩

/-- A tuple other than R82's: three bytes for `SET_LED` instead of nine, handed on whole. -/
theorem test_own_tuple :
    let s := inFrame 0x20000 [0x11, 0x22, 0x33, 0x44]
    nextIs (exec .setLed { s with params := { s.params with
        opPayload := [(.setLed, [.u8, .u16])] } }) (fun t =>
      t.out.trace == [.setLed [.u8 0x11, .u16 0x3322]] && t.rd.pos == 3 && t.disp.ack == 0x20000) =
      true := by
  decide +kernel

/-- S0 with a table of three rows: `V0` of 3 bytes, an unknown name of 1 byte, `I0` as R88 lists it. -/
def ownTable : State :=
  { emitting 0xE 100 with
    params := { Config.params with
      telemetryFields := [⟨1, .field .v0, 3⟩, ⟨2, .other "X", 1⟩, ⟨3, .field .i0, 2⟩] },
    tel := ⟨0xE, 1000, { snapS1 with others := [(1, [7, 8, 9]), (2, [0x58])] }⟩ }

theorem test_own_table :
    nextIs (exec .v0 ownTable) (fun t => frameBytes t == [7, 8, 9]) = true ∧
      nextIs (exec .i0 ownTable) (fun t => frameBytes t == [0x10, 0x00]) = true ∧
      stateBody ownTable.params ownTable.tel = [7, 8, 9, 0x58, 0x10, 0x00] ∧
      nextIs (exec (.stateLen 0xE) ownTable) (fun t => t.out.result == .count 6) = true := by
  decide +kernel

/-- The log after a `setLock true`, with the collaborators' change `e` offered. -/
def lockedThen (e : Env → Env) : State :=
  { logSetLock true State.reset with stimuli := [.collaborators (e (logSetLock true State.reset).env)] }

/-- After `setLock true` the log may open by itself, but it stays locked (R332). -/
theorem test_lock_contract :
    nextIs (step (lockedThen fun e => { e with logOpen := true })) (fun t =>
        t.env.logOpen && t.env.logLocked) = true ∧
      refusedAs (step (lockedThen fun e => { e with logLocked := false })) .brokenContract = true ∧
      refusedAs (step (lockedThen fun e => { e with logLocked := false, lockSet := some false }))
        .brokenContract = true := by
  decide +kernel
/-! ### Witnesses: the hypotheses of each statement hold of a concrete state and operands -/

/-- The invariant as a computation. -/
def invCheck (s : State) : Bool :=
  s.params.wf && (s.rd.buf.wf && s.wr.buf.wf && s.disp.wcfg.wf) &&
    (decide (s.rd.pos ≤ s.rd.len) && decide (s.rd.len ≤ s.params.capRx)) &&
    (decide (s.wr.len ≤ s.wr.cap) && decide (s.wr.len ≤ s.params.capLarge)) &&
    s.rx.queue.all (fun q => decide (q.length ≤ s.params.capRx)) &&
    s.rx.acc.all (fun b => b != 0#8) && Env.wf s.env s.params &&
    (s.disp.type != s.params.typeCommand || s.disp.ack &&& ~~~s.disp.m == 0#32)

theorem inv_of_check {s : State} (h : invCheck s = true) : s.Inv := by
  simp only [invCheck, Bool.and_eq_true, decide_eq_true_eq, List.all_eq_true, bne_iff_ne,
    Bool.or_eq_true, beq_iff_eq] at h
  obtain ⟨⟨⟨⟨⟨⟨⟨h1, h2⟩, h3⟩, h4⟩, h5⟩, h6⟩, h7⟩, h8⟩ := h
  exact ⟨h1, ⟨h2.1.1, h2.1.2, h2.2⟩, h3, h4, h5, fun hm => h6 _ hm rfl, h7,
    fun ht => h8.resolve_left fun hn => hn ht⟩

theorem next_of_check {o : Host.Outcome State Fault Refusal} (h : nextIs o (fun _ => true) = true) :
    ∃ t, o = .next t := by
  cases o with
  | next t => exact ⟨t, rfl⟩
  | fault e => cases h
  | refused r => cases h

/-- Whether the table has the field's row, of the width of R88, and its bit is set. -/
def emitsCheck (s : State) (f : TelField) : Bool :=
  match Params.rowOf s.params f with
  | some r => s.effSelected r.bit && r.size == f.size
  | none => false

theorem emits_iff_check {s : State} {f : TelField} : s.emits f ↔ emitsCheck s f = true := by
  unfold State.emits State.selectsRow emitsCheck
  cases Params.rowOf s.params f <;> simp

theorem witness_EncodedFrameIsZeroFree : Config.params.wf = true ∧ cobsParams.wf = true := by
  decide +kernel

theorem witness_DecodeInvertsEncode :
    Config.params.wf = true ∧ cobsParams.wf = true ∧ ([0x00, 0x7D] : List Byte).length ≤ 2 ∧
      ([] : List Byte).length ≤ 0 := by
  decide +kernel

theorem witness_StrictEscDecodeIsCanonical :
    Config.params.decodeStrict = true ∧ 0#8 ∉ ([0x7D, 0x20] : List Byte) ∧
      decodeEsc Config.params [0x7D, 0x20] 1 = some [0] := by
  decide +kernel

theorem witness_EscEncodedLength : Config.params.codecAlg = .esc := rfl

theorem witness_SerialiserProducesEncode : Config.params.codecAlg = .esc := rfl

theorem witness_StreamingFramerAgreesWithDecode :
    0#8 ∉ ([] : List Byte) ∧ 0#8 ∉ ([0x01, 0x7D] : List Byte) := by
  decide

theorem witness_StreamRegistersStayInStep :
    State.reset.streamTracks ∧ ∃ t, exec (.rxByte 0x7D) State.reset = .next t :=
  ⟨fun _ => ⟨rfl, rfl, rfl⟩, _, rfl⟩

theorem witness_EncodeAndDecodeRows :
    decodeFrame State.reset.params [] 0 = some [] ∧
      decodeFrame State.reset.params [1, 2] 2 = some [1, 2] ∧
      decodeFrame State.reset.params [1, 2] 1 = none ∧ 0#8 ∉ ([1, 2] : List Byte) ∧
      0#8 ∈ ([0] : List Byte) := by
  decide +kernel

theorem witness_ReceiveByte :
    (1#8 : Byte) ≠ 0#8 ∧
      decodeFrame State.reset.params State.reset.rx.acc State.reset.params.capRx = some [] ∧
      decodeFrame Config.params ({ State.reset with rx := ⟨[0x7D], [], true, false, []⟩ } : State).rx.acc
        Config.params.capRx = none := by
  decide +kernel

theorem witness_ParseIntoRow :
    (reader4 0).canParse (tupleSize [.u32, .u16, .u8]) ∧ (reader4 7).canParse (tupleSize []) ∧
      (reader4 0).short (tupleSize [.u32, .u32]) ∧ (reader4 7).short (tupleSize [.u8]) := by
  unfold State.canParse State.short
  decide +kernel

theorem witness_AppendRow :
    writer4.room ([9] : List Byte).length ∧ writer4.room ([] : List Byte).length ∧
      writer4.wr.cap < writer4.wr.len + ([4, 5] : List Byte).length ∧ writer4.wr.buf.wf = true := by
  unfold State.room
  decide +kernel

theorem witness_FrameRows :
    (8 ≤ State.reset.params.cap .small ∧ 8 ≤ State.reset.params.cap .large ∧
        8 ≤ ({ Config.params with capSmall := 8 } : Params).cap .small ∧
        8 ≤ State.reset.params.capLarge) ∧
      (writer4.wr.ovf = false ∧ writer4.wr.len ≤ writer4.params.capLarge) ∧
      ({ writer4 with wr := { writer4.wr with ovf := true } } : State).wr.ovf = true := by
  decide +kernel

theorem witness_ValidNames :
    verifyName [0x41, 0x00, 0x21] = true ∧ verifyName [0x41, 0x42] = false := by
  decide

theorem witness_NameFromString :
    2 ≤ (([0x41, 0x42] : List Byte).takeWhile fun b => b != 0#8).length ∧
      ¬ 2 ≤ (([0x41, 0x00, 0x42] : List Byte).takeWhile fun b => b != 0#8).length := by
  decide

theorem witness_FullRecordRows :
    ((inFrame 0 recordN1).canParse 38 ∧ (inFrame 0 recordN1).disp.wcfg.wf = true ∧
        (inFrame 0 recordN1).params.cfgTotal = 38) ∧
      (inFrame 0 (recordN1.take 37)).short 38 ∧
      (writing 38 (inRecord 0 true [])).room (writing 38 (inRecord 0 true [])).disp.record.length := by
  unfold State.canParse State.short State.room
  decide +kernel

theorem witness_WritePartialRow :
    let s := writing 18 (inRecord 0 true [])
    s.disp.record.length = s.params.cfgTotal ∧ s.params.partialLen 0x0181 0x0009 = 18 ∧
      s.room (s.params.partialLen 0x0181 0x0009) ∧ s.room (s.params.partialLen 0 0) := by
  unfold State.room
  decide +kernel

/-- Two of the sixteen entries and the name; and the empty submask. -/
theorem witness_ParsePartialReadsBackWritePartial :
    let s := inRecord 0 true ((Config.params.partialLayout recordN1 0x0180 0x8001).drop 2)
    (s.disp.wcfg.wf = true ∧ recordN1.length = s.params.cfgTotal ∧
      s.canParse (s.params.partialLen 0x0180 0x8001 - 2) ∧
      s.nextBytes (s.params.partialLen 0x0180 0x8001 - 2) =
        (s.params.partialLayout recordN1 0x0180 0x8001).drop 2) ∧
    (s.canParse (s.params.partialLen 0 0 - 2) ∧
      s.nextBytes (s.params.partialLen 0 0 - 2) = (s.params.partialLayout recordN1 0 0).drop 2) := by
  unfold State.canParse
  decide +kernel

theorem witness_ResetPartialRow :
    let s := inRecord 0 true [0x06, 0x00]
    (s.disp.wcfg.wf = true ∧ s.params.wf = true) ∧
    (s.canParse ((s.params.requestWords 0x0082 0x0006).length - 2) ∧
      s.nextBytes ((s.params.requestWords 0x0082 0x0006).length - 2) =
        (s.params.requestWords 0x0082 0x0006).drop 2) ∧
    (s.canParse ((s.params.requestWords 0x0002 0).length - 2) ∧
      s.nextBytes ((s.params.requestWords 0x0002 0).length - 2) =
        (s.params.requestWords 0x0002 0).drop 2) := by
  unfold State.canParse
  decide +kernel

theorem witness_CommitRow :
    State.reset.env.storeAnswer = .ok ∧
      ({ State.reset.env with storeAnswers := [.err none] } : Env).storeAnswer = .err none ∧
      ({ State.reset.env with storeAnswers := [.err (some recordN1)] } : Env).storeAnswer =
        .err (some recordN1) := by
  decide

theorem witness_SubFieldRows :
    let s := inRecord 0x0001 true [1, 2, 3]
    (SubField.version ≠ .ledStates ∧ s.subSelected .version = true ∧ s.disp.ok = true ∧
      s.canParse (s.params.cfgSizeOf .version)) ∧
    ((inRecord 0x0001 true [1, 2]).disp.ok = true ∧
      (inRecord 0x0001 true [1, 2]).short (Config.params.cfgSizeOf .version)) ∧
    (writing 3 s).room (s.params.field (writing 3 s).disp.record .version).length := by
  unfold State.canParse State.short State.room
  decide +kernel

theorem witness_SubFieldRowsSkipped :
    (inRecord 0 true []).subSelected .deviceName = false ∧
      ((inRecord 0x0001 false []).disp.ok = false ∧ SubField.version ≠ .deviceName) ∧
      (let s := inRecord 0x0100 false (List.replicate 9 0x41);
        s.disp.ok = false ∧ s.subSelected .deviceName = true ∧
          s.params.nameParseUnconditional = true ∧ s.canParse s.params.nameCap) ∧
      (let s := inRecord 0x0100 false (List.replicate 8 0x41);
        s.disp.ok = false ∧ s.subSelected .deviceName = true ∧
          s.params.nameParseUnconditional = true ∧ s.short s.params.nameCap) ∧
      ({ Config.params with nameParseUnconditional := false } : Params).nameParseUnconditional = false := by
  unfold State.canParse State.short
  decide +kernel

/-- All entries of bits 1 and 2 present; entry 2 missing; no entry at all. -/
theorem witness_LedStatesParse :
    let s := inRecord 0x0080 true [0x06, 0x00, 0xE1, 0xE2]
    let u := inRecord 0x0080 true [0x06, 0x00, 0xE1]
    let e := s.params.ledEntrySize
    let c := fun k : Nat => (List.range k).countP fun j => (0x0006#16).getLsbD j
    (s.disp.wcfg.wf = true ∧ s.subSelected .ledStates = true ∧ s.disp.ok = true ∧
      s.nextBytes 2 = le2 0x0006 ∧ s.canParse (2 + e * c 16)) ∧
    (u.disp.wcfg.wf = true ∧ u.subSelected .ledStates = true ∧ u.disp.ok = true ∧
      u.nextBytes 2 = le2 0x0006 ∧ u.canParse (2 + e * c 2) ∧ (0x0006#16).getLsbD 2 = true ∧
      (u.consumed (2 + e * c 2)).short e) ∧
    (let v := inRecord 0x0080 true [0x06, 0x00];
      v.canParse (2 + e * c 1) ∧ (0x0006#16).getLsbD 1 = true ∧
        (v.consumed (2 + e * c 1)).short e) := by
  unfold State.canParse State.short
  decide +kernel

theorem witness_LedStatesResetAndWrite :
    (let s := inRecord 0x0080 true [0x06, 0x00];
      s.subSelected .ledStates = true ∧ s.disp.wcfg.wf = true ∧
        s.params.cfgDefault.length = s.params.cfgTotal ∧ s.nextBytes 2 = le2 0x0006 ∧ s.canParse 2) ∧
    ((inRecord 0x0080 true [0x06]).short 2 ∧ (inRecord 0x0080 true [0x06]).disp.ok = true) ∧
    (writing 2 (inRecord 0x0080 true [])).room (Config.params.partialField
      (writing 2 (inRecord 0x0080 true [])).disp.record 0x0080 0 .ledStates).length := by
  unfold State.canParse State.short State.room
  decide +kernel

/-- R82's tuple, the empty one at the end of a frame, and one that `OP_PAYLOAD` gives. -/
theorem witness_SlotsWithAndWithoutEffect :
    (inFrame 0 []).selected .reqResponse = false ∧
      ((inFrame 0x20 [1]).selected (.motor 0) = true ∧
        (inFrame 0x20 [1]).short ((inFrame 0x20 [1]).tupleBytes (.motor 0))) ∧
      ((inFrame 0x20 [1, 2]).selected (.motor 0) = true ∧ (inFrame 0x20 [1, 2]).canTake (.motor 0)) ∧
      ((inFrame 0x8 []).selected .reqEepromData = true ∧ (inFrame 0x8 []).canTake .reqEepromData) ∧
      (let s : State := { inFrame 0x20 [1] with
          params := { Config.params with opPayload := [(.motor 0, [.u8])] } };
        s.selected (.motor 0) = true ∧ s.canTake (.motor 0) ∧
          s.params.opPayload.lookup (.motor 0) = some [.u8]) := by
  unfold State.short State.canTake State.canParse
  decide +kernel

theorem witness_ForwardingOperations :
    ((inFrame 0x10 [1]).usesR82 .reqEnableIteration ∧
      (inFrame 0x10 [1]).selected .reqEnableIteration = true ∧ (inFrame 0x10 [1]).canParse 1) ∧
    ((inFrame 0x2000 [1]).usesR82 .setCommandOverride ∧
      (inFrame 0x2000 [1]).selected .setCommandOverride = true ∧ (inFrame 0x2000 [1]).canParse 1) ∧
    ((inFrame 0x20000 (List.replicate 9 1)).usesR82 .setLed ∧
      (inFrame 0x20000 (List.replicate 9 1)).selected .setLed = true ∧
      (inFrame 0x20000 (List.replicate 9 1)).canParse Config.params.ledCmdSize) ∧
    (let s := inFrame 0x40000 [0x01, 0xE8, 0x03, 0xFF, 0xFF, 0x00, 0x00, 0x00, 0x80, 0x05];
      s.usesR82 .setSerialRc ∧ s.selected .setSerialRc = true ∧ s.canParse 10 ∧
        s.nextBytes 10 = [1] ++ le2 1000 ++ le2 0xFFFF ++ le2 0 ++ le2 0x8000 ++ [5]) ∧
    ((inFrame 0x20000 (List.replicate 8 1)).usesR82 .setLed ∧
      (inFrame 0x20000 (List.replicate 8 1)).selected .setLed = true ∧
      (inFrame 0x20000 (List.replicate 8 1)).short ((inFrame 0x20000 (List.replicate 8 1)).tupleBytes .setLed)) := by
  unfold State.usesR82 State.canParse State.short
  decide +kernel

theorem witness_ControlRegisterOperations :
    ((inFrame 0x4000 [1, 2, 3, 4]).usesR82 .setStateMask ∧
      (inFrame 0x4000 [1, 2, 3, 4]).selected .setStateMask = true ∧
      (inFrame 0x4000 [1, 2, 3, 4]).canParse 4) ∧
    ((inFrame 0x8000 [1, 2]).usesR82 .setStateDelay ∧
      (inFrame 0x8000 [1, 2]).selected .setStateDelay = true ∧ (inFrame 0x8000 [1, 2]).canParse 2) ∧
    ((inFrame 0x10000 [1, 2]).usesR82 .setSdWriteDelay ∧
      (inFrame 0x10000 [1, 2]).selected .setSdWriteDelay = true ∧
      (inFrame 0x10000 [1, 2]).canParse 2) ∧
    ((inFrame 0x4000 [1, 2, 3]).usesR82 .setStateMask ∧
      (inFrame 0x4000 [1, 2, 3]).selected .setStateMask = true ∧
      (inFrame 0x4000 [1, 2, 3]).short ((inFrame 0x4000 [1, 2, 3]).tupleBytes .setStateMask)) := by
  unfold State.usesR82 State.canParse State.short
  decide +kernel

theorem witness_MotorOverride :
    (inFrame 0x1000 [1, 2]).usesR82 (.motor 7) ∧ (inFrame 0x1000 [1, 2]).selected (.motor 7) = true ∧
      (inFrame 0x1000 [1, 2]).canParse 2 ∧
      (inFrame 0x20 [1]).usesR82 (.motor 0) ∧ (inFrame 0x20 [1]).selected (.motor 0) = true ∧
        (inFrame 0x20 [1]).short 2 := by
  unfold State.usesR82 State.canParse State.short
  decide +kernel

theorem witness_SetCardRecording :
    (inFrame 0x80000 [3]).usesR82 .setCardRecording ∧
      (inFrame 0x80000 [3]).selected .setCardRecording = true ∧ (inFrame 0x80000 [3]).canParse 1 ∧
      (byte ((inFrame 0x80000 [3]).nextBytes 1)).getLsbD 0 = true ∧
      (inFrame 0x80000 [0xFE]).usesR82 .setCardRecording ∧
        (inFrame 0x80000 [0xFE]).selected .setCardRecording = true ∧
      (inFrame 0x80000 [0xFE]).canParse 1 ∧
      (byte ((inFrame 0x80000 [0xFE]).nextBytes 1)).getLsbD 0 = false ∧
      (inFrame 0x80000 []).usesR82 .setCardRecording ∧
        (inFrame 0x80000 []).selected .setCardRecording = true ∧ (inFrame 0x80000 []).short 1 ∧
      (let s := lockedThen fun e => { e with logOpen := true };
        s.env.lockSet = some true ∧
          s.stimuli = .collaborators { (logSetLock true State.reset).env with logOpen := true } :: [] ∧
          nextIs (step s) (fun _ => true) = true) := by
  unfold State.usesR82 State.canParse State.short
  decide +kernel

theorem witness_SetEepromData :
    let s := inFrame 0x2 recordN1
    (s.disp.wcfg.wf = true ∧ s.usesR82 .setEepromData ∧ s.selected .setEepromData = true ∧
      s.canParse s.params.cfgTotal ∧
      s.params.configValid (s.nextBytes s.params.cfgTotal) = true ∧ s.env.storeAnswer = .ok) ∧
    ({ s.env with storeAnswers := [.err none] } : Env).storeAnswer = .err none ∧
    ((inFrame 0x2 recordBad).canParse Config.params.cfgTotal ∧
      Config.params.configValid ((inFrame 0x2 recordBad).nextBytes Config.params.cfgTotal) = false) ∧
    ((inFrame 0x2 (recordN1.take 37)).usesR82 .setEepromData ∧
      (inFrame 0x2 (recordN1.take 37)).selected .setEepromData = true ∧
      (inFrame 0x2 (recordN1.take 37)).short Config.params.cfgTotal) := by
  unfold State.usesR82 State.canParse State.short
  decide +kernel

theorem witness_ReinitEepromData :
    let s := inFrame 0x4 []
    s.disp.wcfg.wf = true ∧ s.params.wf = true ∧ s.usesR82 .reinitEepromData ∧
      s.selected .reinitEepromData = true ∧
      s.env.storeAnswer = .ok ∧
      ({ s.env with storeAnswers := [.err none] } : Env).storeAnswer = .err none := by
  unfold State.usesR82
  decide +kernel

theorem witness_ReqEepromData :
    let s := inFrame 0x8 []
    s.params.wf = true ∧ s.wr.buf.wf = true ∧ s.env.liveCfg.length = s.params.cfgTotal ∧
      s.usesR82 .reqEepromData ∧ s.selected .reqEepromData = true := by
  unfold State.usesR82
  decide +kernel

theorem witness_SetPartialEepromDataCommits :
    let s := inFrame 0x100000 (Config.params.partialLayout recordN1 0x0180 0x8001)
    s.disp.wcfg.wf = true ∧ s.env.persist.length = s.params.cfgTotal ∧
      recordN1.length = s.params.cfgTotal ∧ s.usesR82 .setPartialEepromData ∧
        s.selected .setPartialEepromData = true ∧
      s.canParse (s.params.partialLen 0x0180 0x8001) ∧
      s.nextBytes (s.params.partialLen 0x0180 0x8001) =
        s.params.partialLayout recordN1 0x0180 0x8001 ∧
      s.params.configValid (s.params.mergePartial s.env.persist recordN1 0x0180 0x8001) = true ∧
      s.env.storeAnswer = .ok := by
  unfold State.usesR82 State.canParse
  decide +kernel

theorem witness_ReinitPartialEepromDataCommits :
    let s := inFrame 0x200000 [0x82, 0x00, 0x06, 0x00]
    s.disp.wcfg.wf = true ∧ s.params.wf = true ∧ s.env.persist.length = s.params.cfgTotal ∧
      s.usesR82 .reinitPartialEepromData ∧ s.selected .reinitPartialEepromData = true ∧
      s.canParse (s.params.requestWords 0x0082 0x0006).length ∧
      s.nextBytes (s.params.requestWords 0x0082 0x0006).length = s.params.requestWords 0x0082 0x0006 ∧
      s.params.configValid
        (s.params.mergePartial s.env.persist s.params.cfgDefault 0x0082 0x0006) = true ∧
      s.env.storeAnswer = .ok := by
  unfold State.usesR82 State.canParse
  decide +kernel

/-- With led-states selected, and without it; without a submask; without a sub-submask. -/
theorem witness_ReqPartialEepromData :
    (let s := inFrame 0x400000 [0x81, 0x01, 0x09, 0x00];
      s.params.wf = true ∧ s.wr.buf.wf = true ∧ s.env.liveCfg.length = s.params.cfgTotal ∧
        s.usesR82 .reqPartialEepromData ∧ s.selected .reqPartialEepromData = true ∧
        (0x0181#16).getLsbD (s.params.subBitOf .ledStates) = true ∧
        s.canParse (s.params.requestWords 0x0181 0x0009).length ∧
        s.nextBytes (s.params.requestWords 0x0181 0x0009).length =
          s.params.requestWords 0x0181 0x0009) ∧
    (let s := inFrame 0x400000 [0x10, 0xFE];
      (0xFE10#16).getLsbD (s.params.subBitOf .ledStates) = false ∧
        s.canParse (s.params.requestWords 0xFE10 0).length ∧
        s.nextBytes (s.params.requestWords 0xFE10 0).length = s.params.requestWords 0xFE10 0) ∧
    (inFrame 0x400000 [0x81]).short 2 ∧
    (let s := inFrame 0x400000 [0x80, 0x00, 0x01];
      s.usesR82 .reqPartialEepromData ∧ s.selected .reqPartialEepromData = true ∧ s.canParse 2 ∧
        s.nextBytes 2 = le2 0x0080 ∧
        (0x0080#16).getLsbD (s.params.subBitOf .ledStates) = true ∧ (s.consumed 2).short 2) := by
  unfold State.usesR82 State.canParse State.short
  decide +kernel

/-- A submask that parses, and one that does not, for both operations. -/
theorem witness_PartialOperationOutcomes :
    let s := inFrame 0x300000 [0x04, 0x00, 0x77]
    s.Inv ∧ (inFrame 0x300000 [0x04]).Inv ∧ s.usesR82 .setPartialEepromData ∧
      s.usesR82 .reinitPartialEepromData ∧
      s.selected .setPartialEepromData = true ∧ s.selected .reinitPartialEepromData = true ∧
        s.nextBytes 2 = le2 0x0004 ∧ s.canParse 2 ∧
      (inFrame 0x300000 [0x04]).short 2 :=
  ⟨inv_of_check (by decide +kernel), inv_of_check (by decide +kernel), rfl, rfl, by decide +kernel,
    by decide +kernel, by decide +kernel, ⟨by decide +kernel, by decide +kernel⟩,
    show _ < _ from by decide +kernel⟩

theorem witness_ReqCardRecordingState :
    let s := inFrame 0x800000 []
    s.params.wf = true ∧ s.wr.buf.wf = true ∧ s.usesR82 .reqCardRecordingState ∧
      s.selected .reqCardRecordingState = true := by
  unfold State.usesR82
  decide +kernel

theorem witness_ReqResponse :
    let s := inFrame 0x1 []
    s.params.wf = true ∧ s.wr.buf.wf = true ∧ s.usesR82 .reqResponse ∧
      s.selected .reqResponse = true := by
  unfold State.usesR82
  decide +kernel

theorem witness_CommandFrameRunsSlotsInOrder :
    (inFrame 0x8001 [0x32, 0x00]).Inv ∧
      (inFrame 0x8001 [0x32, 0x00]).disp.type = (inFrame 0x8001 [0x32, 0x00]).params.typeCommand :=
  ⟨inv_of_check (by decide +kernel), rfl⟩

theorem witness_OtherTypesAreIgnored :
    State.reset.disp.type ≠ State.reset.params.typeState ∧
      State.reset.disp.type ≠ State.reset.params.typeResponse ∧
      ({ State.reset.disp with type := 1 } : Disp).type = State.reset.params.typeState ∧
      ({ State.reset.disp with type := 2 } : Disp).type = State.reset.params.typeResponse ∧
      ({ State.reset.disp with type := 256 } : Disp).type ≠ State.reset.params.typeCommand ∧
      State.reset.rx.queue = [] := by
  decide

/-- Seven bytes; eight bytes of another type; eight bytes of a Command frame. -/
theorem witness_ProcessOldestPayload :
    ((queued [0, 0, 0, 0, 1, 0, 0]).Inv ∧ ([0, 0, 0, 0, 1, 0, 0] : List Byte).length < 8) ∧
    ((queued [1, 0, 0, 0, 1, 0, 0, 0]).Inv ∧ 8 ≤ ([1, 0, 0, 0, 1, 0, 0, 0] : List Byte).length ∧
      word ([1, 0, 0, 0] : List Byte) ≠ Config.params.typeCommand) ∧
    ((queued [0, 0, 0, 0, 1, 0, 0, 0]).Inv ∧
      word ([0, 0, 0, 0] : List Byte) = Config.params.typeCommand) :=
  ⟨⟨inv_of_check (by decide +kernel), by decide⟩,
    ⟨inv_of_check (by decide +kernel), by decide, by decide⟩,
    inv_of_check (by decide +kernel), by decide⟩

theorem witness_AckOnlyRequestedOperations :
    (inFrame 0x8001 [0x32, 0x00]).params.wf = true ∧
      (inFrame 0x8001 [0x32, 0x00]).disp.type = Config.params.typeCommand ∧
      ∃ t, exec .typeCommand (inFrame 0x8001 [0x32, 0x00]) = .next t :=
  ⟨by decide +kernel, rfl, next_of_check (by decide +kernel)⟩

theorem witness_OnlyValidRecordsAreCommitted :
    (command ([3, 0, 0, 0] ++ recordN1)).Inv ∧ Instr.process.isHostStep = true ∧
      ∃ t, exec .process (command ([3, 0, 0, 0] ++ recordN1)) = .next t :=
  ⟨inv_of_check (by decide +kernel), rfl, next_of_check (by decide +kernel)⟩

theorem witness_NoFrameOverflows :
    liveS1.Inv ∧ liveS1.wr.ovf = false ∧ (Instr.emit 0 0xFFFFFFFF false).isHostStep = true ∧
      ∃ t, exec (.emit 0 0xFFFFFFFF false) liveS1 = .next t :=
  ⟨inv_of_check (by decide +kernel), rfl, rfl, next_of_check (by decide +kernel)⟩

theorem witness_OwnersOfState :
    Instr.verify ∉ [Instr.setStateMask, .setStateDelay, .setSdWriteDelay, .typeCommand, .process,
        .reset] ∧
      ∃ t, exec .verify State.reset = .next t :=
  ⟨by decide, next_of_check (by decide +kernel)⟩

theorem witness_ScalarTelemetryRows :
    ∀ f ∈ [TelField.micros, .status, .v0, .i0, .i1, .temperature, .pressure, .auxChanMask,
        .kineAltitude, .loopCount],
      (emitting 0x0FFFBFFF f.size).emits f ∧ (emitting 0x0FFFBFFF f.size).room f.size := by
  simp only [emits_iff_check, State.room]
  decide +kernel

theorem witness_TripleTelemetryRows :
    ∀ f ∈ [TelField.accel, .gyro, .mag, .kineAngle, .kineRate],
      (emitting 0x0FFFBFFF 12).emits f ∧ (emitting 0x0FFFBFFF 12).room 12 := by
  simp only [emits_iff_check, State.room]
  decide +kernel

theorem witness_PidTelemetryRows :
    ∀ f ∈ [TelField.pidFzMaster, .pidTxMaster, .pidTyMaster, .pidTzMaster, .pidFzSlave, .pidTxSlave,
        .pidTySlave, .pidTzSlave],
      (emitting 0x0FFFBFFF 24).emits f ∧ (emitting 0x0FFFBFFF 24).room 24 := by
  simp only [emits_iff_check, State.room]
  decide +kernel

theorem witness_ArrayTelemetryRows :
    ∀ f ∈ [TelField.rxPpm, .commands, .fAndT, .motorOut],
      (emitting 0x0FFFBFFF f.size).emits f ∧ (emitting 0x0FFFBFFF f.size).room f.size := by
  simp only [emits_iff_check, State.room]
  decide +kernel

/-- A clear bit; a row that does not fit; `V0` of 3 bytes; `MICROS` of 8; a name that R88 lacks. -/
theorem witness_TelemetryRowsOfAnyTable :
    (emitting 0x4000 100).effSelected 0 = false ∧
    ((emitting 1 3).selectsRow .micros ⟨0, .field .micros, 4⟩ ∧
      (emitting 1 3).wr.cap < (emitting 1 3).wr.len + 4) ∧
    (ownTable.selectsRow .v0 ⟨1, .field .v0, 3⟩ ∧ ownTable.room 3 ∧ 3 ≠ TelField.v0.size ∧
      ownTable.tel.snap.others.lookup 1 = some [7, 8, 9]) ∧
    (let s : State := { emitting 1 8 with
        params := { Config.params with telemetryFields := [⟨0, .field .micros, 8⟩] } };
      s.selectsRow .micros ⟨0, .field .micros, 8⟩ ∧ s.room 8 ∧ 8 ≠ TelField.micros.size) ∧
    ownTable.tel.snap.others.lookup 2 = some [0x58] := by
  unfold State.selectsRow State.room
  decide +kernel

theorem witness_EmitSendsOneStateFrame :
    liveS1.Inv ∧ liveS1.env.logOpen = false ∧ liveS1.effectiveMask 0 = 0#32 ∧
      liveS1.effectiveMask 1 ≠ 0#32 ∧
      ({ liveS1 with env := { liveS1.env with logOpen := true } } : State).Inv ∧
      ({ liveS1 with ctl := ⟨3, 0, 0⟩ } : State).effectiveMask 0 ≠ 0#32 :=
  ⟨inv_of_check (by decide +kernel), rfl, rfl, by decide, inv_of_check (by decide +kernel), by decide⟩

theorem witness_StateLength : (0x802#32 : Word) &&& 0xE0#32 = 0#32 := by decide

theorem witness_DecodeInvertsEncoder :
    (Instr.decode [1, 0] (2 ^ 32 - 1)).wf = true ∧ (Instr.parseInto [.bytes 0, .f32x3]).wf = true ∧
      (Instr.deviceName .write).wf = true := by
  decide

theorem witness_StepRunsTheDecodedInstruction :
    let s : State := { State.reset with stimuli := [.instr .cmd [0x03, 0x00, 0x00, 0x00]] }
    s.params.wf = true ∧ s.stimuli = .instr .cmd [0x03, 0x00, 0x00, 0x00] :: [] ∧
      decodeAll .cmd [0x03, 0x00, 0x00, 0x00] = .ok (.setEepromData :: [.reqResponse]) := by
  decide +kernel

theorem witness_StepKeepsInvariant :
    let s : State := { command [1, 0, 0, 0] with stimuli := [.instr .op [3]] }
    s.Inv ∧ ∃ t, step s = .next t :=
  ⟨inv_of_check (by decide +kernel), next_of_check (by decide +kernel)⟩

theorem witness_HostStepsComplete :
    (command [1, 0, 0, 0]).Inv ∧ Instr.process.isHostStep = true ∧ (Instr.rxByte 0).isHostStep = true ∧
      (Instr.emit 0 0 true).isHostStep = true ∧ Instr.reset.isHostStep = true :=
  ⟨inv_of_check (by decide +kernel), rfl, rfl, rfl, rfl⟩

end Sys2Proof.Tests
end

section
/-! The Frame Codec (40_frame_codec.md): the length of an ESC encoding (R113), and what `RX_BYTE` does to
the framer and to the rest of the state (R117). -/

namespace Sys2Proof

/-! ### The length of an ESC encoding (R113) -/

theorem Params.escaped_iff (p : Params) (x : Byte) :
    p.escaped x = true ↔ x = 0#8 ∨ x = p.escByte := by
  simp [Params.escaped]

theorem escapeByte_length (p : Params) (x : Byte) :
    (escapeByte p x).length = 1 + if x = 0#8 ∨ x = p.escByte then 1 else 0 := by
  by_cases h : x = 0#8 ∨ x = p.escByte
  · simp [escapeByte, (p.escaped_iff x).mpr h, h]
  · simp [escapeByte, mt (p.escaped_iff x).mp h, h]

theorem stuffedEsc_length (p : Params) (xs : List Byte) :
    (stuffedEsc p xs).length =
      xs.length + xs.countP (fun b => decide (b = 0#8 ∨ b = p.escByte)) := by
  induction xs with
  | nil => rfl
  | cons x xs ih =>
    simp only [stuffedEsc, List.length_append, escapeByte_length, ih, List.length_cons,
      List.countP_cons, decide_eq_true_eq]
    omega

theorem encodeFrame_length_of_esc {p : Params} (h : p.codecAlg = .esc) (xs : List Byte) :
    (encodeFrame p xs).length =
      xs.length + xs.countP (fun b => decide (b = 0#8 ∨ b = p.escByte)) + 1 := by
  simp only [encodeFrame, stuffed, h, List.length_append, stuffedEsc_length, List.length_singleton]

end Sys2Proof

namespace Sys2Proof.Machine

/-- Settles O4: the bounds follow from the exact length, since a count lies between 0 and the payload's
length; a zero tag is four escaped bytes. -/
theorem escEncodedLength : Obligations.EscEncodedLength := by
  refine ⟨fun p x hesc => ?_, ?_⟩
  · have hlen := encodeFrame_length_of_esc hesc x
    have hcount : x.countP (fun b => decide (b = 0#8 ∨ b = p.escByte)) ≤ x.length :=
      List.countP_le_length
    exact ⟨hlen, by omega, by omega⟩
  · have hcount : (le4 0#32).countP
        (fun b => decide (b = 0#8 ∨ b = Config.params.escByte)) = 4 := by decide
    rw [stuffedEsc_length, le4_length, hcount]

/-! ### The streaming registers leave the queue alone (R119) -/

@[simp] theorem Framer.push_queue (f : Framer) (capRx : Nat) (d : Byte) :
    (f.push capRx d).queue = f.queue := by
  simp only [Framer.push, apply_ite Framer.queue, ite_self]

@[simp] theorem Framer.stream_queue (f : Framer) (p : Params) (b : Byte) :
    (f.stream p b).queue = f.queue := by
  simp only [Framer.stream, apply_ite Framer.queue, Framer.push_queue, ite_self]

@[simp] theorem Framer.follow_queue (f : Framer) (p : Params) (b : Byte) :
    (f.follow p b).queue = f.queue := by
  unfold Framer.follow
  split
  · exact f.stream_queue p b
  · rfl

/-! ### `RX_BYTE` (R117): one equation per case -/

theorem exec_rxByte (b : Byte) (s : State) : exec (.rxByte b) s = .next (rxByte b s) := rfl

theorem rxByte_of_ne_zero {b : Byte} (hb : b ≠ 0#8) (s : State) :
    rxByte b s = { s with rx := { s.rx.follow s.params b with acc := s.rx.acc ++ [b] } } := by
  simp only [rxByte, ne_eq, hb, not_false_eq_true, if_true]

theorem rxByte_zero_of_some {s : State} {r : List Byte}
    (h : decodeFrame s.params s.rx.acc s.params.capRx = some r) :
    rxByte 0#8 s =
      { s with rx := { s.rx.follow s.params 0#8 with acc := [], queue := s.rx.queue ++ [r] } } := by
  simp only [rxByte, ne_eq, not_true_eq_false, if_false, h]

theorem rxByte_zero_of_none {s : State}
    (h : decodeFrame s.params s.rx.acc s.params.capRx = none) :
    rxByte 0#8 s =
      ({ s with rx := { s.rx.follow s.params 0#8 with acc := [] } } : State).raise
        .frame (.frame s.rx.acc) := by
  simp only [rxByte, ne_eq, not_true_eq_false, if_false, h]

/-- Settles O9: the three cases are the three equations of `rxByte`; the queue is kept where the rule
keeps it because the streaming registers that follow the byte do not touch it. -/
theorem receiveByte : Obligations.ReceiveByte := by
  intro s
  refine ⟨fun b hb => ?extended, fun r hr => ?queued, fun hf => ?dropped⟩
  case extended =>
    refine ⟨_, exec_rxByte b s, ?_⟩
    rw [rxByte_of_ne_zero hb]
    exact ⟨rfl, s.rx.follow_queue s.params b, rfl⟩
  case queued =>
    refine ⟨_, exec_rxByte 0#8 s, ?_⟩
    rw [rxByte_zero_of_some hr]
    exact ⟨rfl, rfl, rfl⟩
  case dropped =>
    refine ⟨_, exec_rxByte 0#8 s, ?_⟩
    rw [rxByte_zero_of_none hf]
    exact ⟨rfl, s.rx.follow_queue s.params 0#8, rfl⟩

end Sys2Proof.Machine
end

section
/-! The Field Reader and the Field Writer (41_field_rw.md): the rows `ParseInto` (R141) and `Append`
(R146). -/

namespace Sys2Proof.Machine

/-! ### `ParseInto` (R141): one equation per case -/

theorem exec_parseInto_eq (ts : List FieldType) (s : State) :
    exec (.parseInto ts) s =
      outcome ((parseInto ts s).map fun r => r.1.setResult (tupleResult r.2)) := rfl

theorem exec_parseInto_of_canParse {ts : List FieldType} {s : State}
    (h : s.canParse (tupleSize ts)) :
    exec (.parseInto ts) s = .next ((s.consumed (tupleSize ts)).setResult
      (.tuple (decodeTuple ts (s.nextBytes (tupleSize ts))))) := by
  rw [exec_parseInto_eq, parseInto_eq h]
  rfl

theorem exec_parseInto_of_short {ts : List FieldType} {s : State} (h : s.short (tupleSize ts)) :
    exec (.parseInto ts) s = .next (s.setResult .fail) := by
  rw [exec_parseInto_eq, parseInto_short h]
  rfl

/-- Settles O10: the reader takes the bytes of the whole tuple at once, so the size of the tuple alone
decides between the two equations. -/
theorem parseIntoRow : Obligations.ParseIntoRow :=
  fun _ _ => ⟨exec_parseInto_of_canParse, exec_parseInto_of_short⟩

/-! ### `Append` (R146): one equation per case, and the bytes of WBUF afterwards -/

theorem exec_append_eq (bs : List Byte) (s : State) :
    exec (.append bs) s =
      outcome ((append bs s).map fun r => r.1.setResult (okResult r.2)) := rfl

theorem exec_append_of_room {bs : List Byte} {s : State} (h : s.room bs.length) :
    exec (.append bs) s = .next ((s.appended bs).setResult .ok) := by
  rw [exec_append_eq, append_eq h]
  rfl

theorem exec_append_of_full {bs : List Byte} {s : State} (h : s.wr.cap < s.wr.len + bs.length) :
    exec (.append bs) s =
      .next (({ s with wr := { s.wr with ovf := true } } : State).setResult .fail) := by
  rw [exec_append_eq, append_full h]
  rfl

theorem appended_wr_buf_read {s : State} (hwf : s.wr.buf.wf = true) (bs : List Byte) (a : Nat) :
    (s.appended bs).wr.buf.read a =
      if s.wr.len ≤ a ∧ a < s.wr.len + bs.length then bs.getD (a - s.wr.len) 0#8
      else s.wr.buf.read a := by
  rw [State.appended_wr_buf, Memory.read_writeBytes bs _ hwf]

/-- Settles O12: the capacity test comes before the write, so a sequence is written whole or not at
all; the bytes outside it are kept by the one rule for writing into a byte space. -/
theorem appendRow : Obligations.AppendRow := by
  intro s bs
  refine ⟨fun hroom => ?written, fun hfull => ?refused, fun hwf a => ?bytes⟩
  case written => exact exec_append_of_room hroom
  case refused => exact exec_append_of_full hfull
  case bytes => exact appended_wr_buf_read hwf bs a

end Sys2Proof.Machine
end

section
/-! The Name Validator (42_name_validator.md): what `fromString` leaves in the buffer, and why `verify`
refuses a buffer without a terminator. -/

namespace Sys2Proof

/-- The characters of a source before its terminator, or before its end (R164). -/
def nameChars (bs : List Byte) : List Byte := bs.takeWhile fun b => b != 0#8

@[simp] theorem nameChars_nil : nameChars [] = [] := rfl

@[simp] theorem nameChars_terminator (t : List Byte) : nameChars (0#8 :: t) = [] := rfl

theorem nameChars_cons_of_ne {c : Byte} (hc : c ≠ 0#8) (t : List Byte) :
    nameChars (c :: t) = c :: nameChars t :=
  List.takeWhile_cons_of_pos (by simpa using hc)

theorem terminator_notMem_nameChars (bs : List Byte) : 0#8 ∉ nameChars bs := fun hmem => by
  simpa using List.mem_takeWhile_imp hmem

/-- R162: only a terminator ends the scan of `verify` with `valid`. -/
theorem verifyName_eq_false_of_no_terminator {name : List Byte} (h : 0#8 ∉ name) :
    verifyName name = false := by
  induction name with
  | nil => rfl
  | cons c t ih =>
    obtain ⟨hc, ht⟩ : 0#8 ≠ c ∧ 0#8 ∉ t := by simpa using h
    simp [verifyName, hc.symm, ih ht]

/-- R164: the copied characters, then the fill. -/
theorem nameFromString_eq (n : Nat) (bs : List Byte) :
    nameFromString n bs =
      (nameChars bs).take n ++ List.replicate (n - (nameChars bs).length) 0#8 := by
  induction n, bs using nameFromString.induct with
  | case1 bs => simp [nameFromString]
  | case2 n => simp [nameFromString]
  | case3 n t => simp [nameFromString]
  | case4 n c t hc ih => simp [nameFromString, nameChars_cons_of_ne hc, hc, ih]

theorem nameFromString_of_le_length {n : Nat} {bs : List Byte} (h : n ≤ (nameChars bs).length) :
    nameFromString n bs = (nameChars bs).take n := by
  rw [nameFromString_eq, Nat.sub_eq_zero_of_le h, List.replicate_zero, List.append_nil]

theorem verifyName_nameFromString_of_le_length {n : Nat} {bs : List Byte}
    (h : n ≤ (nameChars bs).length) : verifyName (nameFromString n bs) = false := by
  rw [nameFromString_of_le_length h]
  exact verifyName_eq_false_of_no_terminator fun hmem =>
    terminator_notMem_nameChars bs (List.mem_of_mem_take hmem)

end Sys2Proof

namespace Sys2Proof.Machine

theorem exec_fromString (bs : List Byte) (s : State) :
    exec (.fromString bs) s =
      .next (s.setResult (.bytes (nameFromString s.params.nameCap bs))) := rfl

/-- Settles O15 (`protected`, so that it does not hide the model's `nameFromString`): an over-length
source leaves no room for the fill, so the buffer holds characters of the source only, and none of them is
the terminator that `verify` looks for. -/
protected theorem nameFromString : Obligations.NameFromString :=
  ⟨fun s bs => exec_fromString bs s,
    fun n bs => ⟨nameFromString_eq n bs, verifyName_nameFromString_of_le_length⟩⟩

end Sys2Proof.Machine
end

section
/-! The operations of the Protocol Dispatcher that forward their tuple to the live system (R210, R212,
R216, R217) or write a control register (R213 to R215), from R82's tuples (44_dispatcher.md). -/

namespace Sys2Proof.Machine

/-! ### Decoding a tuple field by field (R141, R142) -/

theorem decodeTuple_append {t : FieldType} {a : List Byte} (h : a.length = fieldSize t)
    (ts : List FieldType) (rest : List Byte) :
    decodeTuple (t :: ts) (a ++ rest) = decodeField t a :: decodeTuple ts rest := by
  rw [decodeTuple, List.take_left' h, List.drop_left' h]

theorem decodeTuple_singleton {t : FieldType} {bs : List Byte} (h : bs.length = fieldSize t) :
    decodeTuple [t] bs = [decodeField t bs] := by
  simpa [decodeTuple] using decodeTuple_append h [] []

theorem decodeTuple_nextBytes (t : FieldType) (s : State) :
    decodeTuple [t] (s.nextBytes (fieldSize t)) = [decodeField t (s.nextBytes (fieldSize t))] :=
  decodeTuple_singleton (nextBytes_length s (fieldSize t))

/-- The six values of the tuple of `SET_SERIAL_RC` (R82, R217). -/
theorem decodeTuple_serialRc (en aux : Byte) (th pi ro ya : Half) :
    decodeTuple [.u8, .i16, .i16, .i16, .i16, .u8]
        ([en] ++ le2 th ++ le2 pi ++ le2 ro ++ le2 ya ++ [aux]) =
      [.u8 en, .i16 th, .i16 pi, .i16 ro, .i16 ya, .u8 aux] := by
  have hu8 (b : Byte) : [b].length = fieldSize .u8 := rfl
  have hi16 (v : Half) : (le2 v).length = fieldSize .i16 := le2_length v
  simp only [List.append_assoc, decodeTuple_append (hu8 _), decodeTuple_append (hi16 _),
    decodeTuple_singleton (hu8 _), decodeField, byte_singleton, half_le2]

/-! ### What each operation does with its values (R205, R210, R212 to R217) -/

theorem act_reqEnableIteration (vs : List FieldVal) :
    act .reqEnableIteration vs =
      simpleOp .reqEnableIteration fun t => t.record (.motorEnableIteration vs) := rfl

theorem act_setCommandOverride (vs : List FieldVal) :
    act .setCommandOverride vs =
      simpleOp .setCommandOverride fun t => t.record (.setCommandOverride vs) := rfl

theorem act_setLed (vs : List FieldVal) :
    act .setLed vs = simpleOp .setLed fun t => t.record (.setLed vs) := rfl

theorem act_setSerialRc (vs : List FieldVal) :
    act .setSerialRc vs = simpleOp .setSerialRc fun t => t.record (.setSerialRc vs) := rfl

theorem act_setStateMask (vs : List FieldVal) :
    act .setStateMask vs = simpleOp .setStateMask fun t =>
      { t with ctl := { t.ctl with telemetryMask := wordOperand .setStateMask vs } } := rfl

theorem act_setStateDelay (vs : List FieldVal) :
    act .setStateDelay vs = simpleOp .setStateDelay fun t =>
      { t with ctl := { t.ctl with sendInterval := halfOperand .setStateDelay vs } } := rfl

theorem act_setSdWriteDelay (vs : List FieldVal) :
    act .setSdWriteDelay vs = simpleOp .setSdWriteDelay fun t =>
      { t with ctl := { t.ctl with logInterval := halfOperand .setSdWriteDelay vs } } := rfl

/-! ### The row of a selected simple operation: one equation per case (R205) -/

/-- R205: a selected simple operation takes R82's tuple, acts on its values, and sets its ack bit. -/
theorem exec_simpleOp_of_canParse {op : CmdOp} {f : List FieldVal → State → State} {s : State} {n : Nat}
    {vs : List FieldVal} (hact : ∀ us, act op us = simpleOp op (f us)) (hr82 : s.usesR82 op)
    (hsel : s.selected op = true) (hsize : tupleSize (defaultPayload s.params op) = n)
    (hparse : s.canParse n) (hvals : decodeTuple (defaultPayload s.params op) (s.nextBytes n) = vs) :
    exec op.instr s = .next ((f vs ((s.setSeq op.seq).consumed n)).ackOp op) := by
  rw [exec_cmd, slotOf_r82 hr82 hsel hsize hparse, hvals, hact]
  rfl

/-- R205: a selected operation that is short of bytes raises `E_PARSE` and does nothing else. -/
theorem exec_cmd_of_short {op : CmdOp} {s : State} (hsel : s.selected op = true)
    (hshort : s.short (s.tupleBytes op)) :
    exec op.instr s = .next ((s.setSeq op.seq).raise .parse (.op op)) := by
  rw [exec_cmd, slotOf_short hsel hshort, outcome_ok]

/-- Settles O27: each operation is a simple one whose action is one event that holds the values of its
tuple, so its effect is the one equation of a simple operation; the failure is that of every row. -/
theorem forwardingOperations : Obligations.ForwardingOperations := by
  intro s
  refine ⟨fun hr82 hsel hparse => ?enableIteration, fun hr82 hsel hparse => ?commandOverride,
    fun hr82 hsel hparse => ?led, fun en aux th pi ro ya hr82 hsel hparse hbytes => ?serialRc,
    fun op _ hsel hshort => ?short, rfl, rfl⟩
  case enableIteration =>
    exact exec_simpleOp_of_canParse act_reqEnableIteration hr82 hsel rfl hparse
      (decodeTuple_nextBytes .u8 s)
  case commandOverride =>
    exact exec_simpleOp_of_canParse act_setCommandOverride hr82 hsel rfl hparse
      (decodeTuple_nextBytes .u8 s)
  case led =>
    exact exec_simpleOp_of_canParse act_setLed hr82 hsel rfl hparse
      (decodeTuple_nextBytes (.bytes s.params.ledCmdSize) s)
  case serialRc =>
    have hvals := decodeTuple_serialRc en aux th pi ro ya
    rw [← hbytes] at hvals
    exact exec_simpleOp_of_canParse act_setSerialRc hr82 hsel rfl hparse hvals
  case short => exact exec_cmd_of_short hsel hshort

/-- Settles O28: each operation is a simple one whose action stores the value of its tuple, which is one
field as wide as the register; the failure is that of every row. -/
theorem controlRegisterOperations : Obligations.ControlRegisterOperations := by
  intro s
  refine ⟨fun hr82 hsel hparse => ?stateMask, fun hr82 hsel hparse => ?stateDelay,
    fun hr82 hsel hparse => ?sdWriteDelay, fun op _ hsel hshort => ?short, rfl⟩
  case stateMask =>
    exact exec_simpleOp_of_canParse act_setStateMask hr82 hsel rfl hparse
      (decodeTuple_nextBytes .u32 s)
  case stateDelay =>
    exact exec_simpleOp_of_canParse act_setStateDelay hr82 hsel rfl hparse
      (decodeTuple_nextBytes .u16 s)
  case sdWriteDelay =>
    exact exec_simpleOp_of_canParse act_setSdWriteDelay hr82 hsel rfl hparse
      (decodeTuple_nextBytes .u16 s)
  case short => exact exec_cmd_of_short hsel hshort

end Sys2Proof.Machine
end

section
/-! What the dispatcher's configuration operations and requests are made of (45_dispatcher_config_ops.md):
committing the working copy, one equation per answer (R179, R240); building and sending a reply (R75 to
R77, R147, R148); and that `ParsePartial` and `ResetPartial` run to their end (R176, R177). -/

namespace Sys2Proof

theorem le2_half {bs : List Byte} (h : bs.length = 2) : le2 (half bs) = bs := by
  have hlt := fromLe_lt bs
  rw [h] at hlt
  have hval : (half bs).toNat = fromLe bs := Nat.mod_eq_of_lt hlt
  rw [le2, hval, ← h, leN_fromLe]

end Sys2Proof

namespace Sys2Proof.Machine

/-! ### Committing the working copy (R179, R240): one equation per case -/

theorem commitAndAck_of_ok {op : CmdOp} {s : State} (h : s.env.storeAnswer = .ok) :
    commitAndAck op s = .ok ((s.committed s.wcfgRecord).ackOp op) := by
  rw [commitAndAck_eq, h]
  rfl

theorem commitAndAck_of_err {op : CmdOp} {s : State} {a : Option (List Byte)}
    (h : s.env.storeAnswer = .err a) :
    commitAndAck op s = .ok ((s.committed s.wcfgRecord).raise .collab (.op op)) := by
  rw [commitAndAck_eq, h]
  rfl

theorem validateAndCommit_of_valid {op : CmdOp} {s : State}
    (h : s.params.configValid s.wcfgRecord = true) :
    validateAndCommit op s = commitAndAck op s := by
  rw [validateAndCommit, configValid_eq, bind_ok, if_pos h]

theorem validateAndCommit_of_invalid {op : CmdOp} {s : State}
    (h : s.params.configValid s.wcfgRecord = false) :
    validateAndCommit op s = .ok (s.raise .valid (.op op)) := by
  rw [validateAndCommit, configValid_eq, bind_ok, h, if_neg Bool.false_ne_true]

/-! ### Building a reply and sending it (R147, R148) -/

/-- The state with a frame begun: the writer holds the type and the mask (R147). -/
def State.begun (s : State) (c : FrameClass) (type mask : Word) : State :=
  { s with wr := ⟨s.wr.buf.writeBytes 0 (le4 type ++ le4 mask), 8, s.params.cap c, false, s.wr.tx⟩ }

theorem beginFrame_begun {c : FrameClass} {type mask : Word} {s : State} (h1 : 8 ≤ s.params.cap c)
    (h2 : 8 ≤ s.params.capLarge) : beginFrame c type mask s = .ok (s.begun c type mask) :=
  beginFrame_eq h1 h2

theorem put_bind {bs : List Byte} {s : State} {f : State → Res State} (h : s.room bs.length) :
    (put bs s).bind f = f (s.appended bs) := by
  rw [put_eq h, bind_ok]

/-- A begun frame has room for what both its capacity and WBUF leave after the header (R146). -/
theorem room_begun {c : FrameClass} {s : State} {n : Nat} (h1 : 8 + n ≤ s.params.cap c)
    (h2 : 8 + n ≤ s.params.capLarge) (type mask : Word) : (s.begun c type mask).room n := ⟨h1, h2⟩

/-- A frame begun and filled is sent to the link whole (R148). -/
theorem sendFrame_begun {w : Site} {c : FrameClass} {type mask : Word} {body : List Byte} {s : State}
    (hw : s.wr.buf.wf = true) (h1 : 8 + body.length ≤ s.params.cap c)
    (h2 : 8 + body.length ≤ s.params.capLarge) :
    sendFrame w .wire ((s.begun c type mask).appended body) =
      .ok (s.sentFrame c (le4 type ++ le4 mask ++ body)) := by
  have h := frame_sent (w := w) (type := type) (mask := mask) hw h1 h2
  rwa [beginFrame_begun (by omega) (by omega), bind_ok, put_eq (room_begun h1 h2 type mask),
    bind_ok] at h

/-- A reply: a frame begun in `s`, which `build` fills with `body`, taking the state to `u`, and sends;
`f` is what follows the sending (R242, R245 to R247). -/
theorem reply_eq {c : FrameClass} {type mask : Word} {body : List Byte} {s : State}
    {build : State → Res State} (w : Site) (u : State) (f : State → State)
    (hbuild : build (s.begun c type mask) =
      (sendFrame w .wire ((u.begun c type mask).appended body)).map f)
    (hu : u.params = s.params) (hw : u.wr.buf.wf = true) (hcap : 8 + body.length ≤ s.params.cap c)
    (hbuf : 8 + body.length ≤ s.params.capLarge) :
    (beginFrame c type mask s).bind build =
      .ok (f (u.sentFrame c (le4 type ++ le4 mask ++ body))) := by
  have hsend := sendFrame_begun (w := w) (type := type) (mask := mask) (body := body) (s := u) hw
    (by rwa [hu]) (by rwa [hu])
  rw [beginFrame_begun (by omega) (by omega), bind_ok, hbuild, hsend, map_ok]

/-! ### `WritePartial` where there is room (R86, R175) -/

/-- R86: led-states adds its sub-submask to its bytes; every other sub-field adds at most its bytes. -/
theorem partialField_length_le (p : Params) {r : List Byte} (h : r.length = p.cfgTotal)
    (sub ledsub : Half) (k : SubField) :
    (p.partialField r sub ledsub k).length ≤ p.cfgSizeOf k + if k = .ledStates then 2 else 0 := by
  rw [partialField_length p h]
  by_cases hk : k = .ledStates
  · subst hk
    have hcount : ((List.range 16).countP fun i => ledsub.getLsbD i) ≤ 16 := List.countP_le_length
    have hleds := Nat.mul_le_mul_left p.ledEntrySize hcount
    simp only [Params.cfgSizeOf, if_true]
    split <;> omega
  · simp only [if_neg hk]
    split <;> omega

/-- R86, WF5: a partial layout is at most the whole record with both submask words. -/
theorem partialLayout_length_le (p : Params) {r : List Byte} (h : r.length = p.cfgTotal)
    (sub ledsub : Half) : (p.partialLayout r sub ledsub).length ≤ 2 + 2 + p.cfgTotal := by
  have hle : (SubField.all.map fun k => (p.partialField r sub ledsub k).length).sum ≤
      (SubField.all.map fun k => p.cfgSizeOf k + if k = .ledStates then 2 else 0).sum :=
    List.sum_le_sum fun k _ => partialField_length_le p h sub ledsub k
  have hextra : (SubField.all.map fun k => if k = SubField.ledStates then 2 else 0).sum = 2 := rfl
  rw [List.sum_map_add, hextra, ← Params.cfgTotal] at hle
  rw [Params.partialLayout, List.length_append, le2_length, List.length_flatMap]
  omega

/-- R175: the nine sub-fields append their parts of the layout in order. -/
theorem walkFields_write_eq {s : State}
    (h : s.room (SubField.all.flatMap
      (s.params.partialField s.disp.record s.disp.sub s.disp.ledsub)).length) :
    walkFields .write s = .ok (s.appended
      (SubField.all.flatMap (s.params.partialField s.disp.record s.disp.sub s.disp.ledsub))) := by
  refine runAll_append_eq (subRow · .write) _ (fun u => u.disp = s.disp ∧ u.params = s.params)
    (fun u x hu => hu) SubField.all (fun k _ u hu hroom => ?_) s ⟨rfl, rfl⟩ h
  obtain ⟨hdisp, hparams⟩ := hu
  rw [← hdisp, ← hparams] at hroom ⊢
  exact writeField_eq k u hroom

theorem writePartial_eq {sub ledsub : Half} {s : State}
    (h : s.room (s.params.partialLayout s.disp.record sub ledsub).length) :
    writePartial sub ledsub s = .ok (((s.setSub sub).setLedsub ledsub).appended
      (s.params.partialLayout s.disp.record sub ledsub)) := by
  have hroom : ((s.setSub sub).setLedsub ledsub).room ((le2 sub).length + (SubField.all.flatMap
      (s.params.partialField s.disp.record sub ledsub)).length) := by
    rwa [Params.partialLayout, List.length_append] at h
  have hsub : ((s.setSub sub).setLedsub ledsub).room (le2 sub).length :=
    ⟨by have := hroom.1; omega, by have := hroom.2; omega⟩
  rw [writePartial, put_eq hsub, bind_ok, walkFields_write_eq (room_appended hroom)]
  exact congrArg Except.ok (appended_appended _ _ _)

/-- `WritePartial` of what the registers hold already leaves them as they are. -/
theorem writePartial_bind {s : State} {f : State → Res State}
    (h : s.room (s.params.partialLayout s.disp.record s.disp.sub s.disp.ledsub).length) :
    (writePartial s.disp.sub s.disp.ledsub s).bind f =
      f (s.appended (s.params.partialLayout s.disp.record s.disp.sub s.disp.ledsub)) := by
  rw [writePartial_eq h, bind_ok]
  rfl

/-! ### `ParsePartial` and `ResetPartial` run to their end (R176, R177) -/

/-- What every sub-field of a walk finds and leaves: the reader inside its buffer, and a result register
that no row writes. -/
def WalkReady (r : OpResult) (s : State) : Prop := s.readerBounded ∧ s.out.result = r

theorem WalkReady.consumed {r : OpResult} {s : State} {n : Nat} (h : WalkReady r s)
    (hn : s.canParse n) : WalkReady r (s.consumed n) := ⟨hn, h.2⟩

/-- R140: a reader inside its buffer has the next bytes, or is short of them. -/
theorem short_or_canParse {s : State} (h : s.readerBounded) (n : Nat) : s.short n ∨ s.canParse n := by
  obtain ⟨hpos, hlen⟩ := h
  by_cases hs : s.rd.len - s.rd.pos < n
  · exact .inl hs
  · exact .inr ⟨by omega, hlen⟩

theorem parseToWcfg_completes {r : OpResult} {s : State} {off n : Nat} (h : WalkReady r s)
    (hin : off + n ≤ s.params.cfgTotal) : ∃ t, parseToWcfg off n s = .ok t ∧ WalkReady r t := by
  rcases short_or_canParse h.1 n with hs | hc
  · exact ⟨_, parseToWcfg_short hs, h⟩
  · exact ⟨_, parseToWcfg_eq hc hin, h.consumed hc⟩

theorem memWrite_wcfg_completes {r : OpResult} {s : State} {off : Nat} {bs : List Byte}
    (h : WalkReady r s) (hin : off + bs.length ≤ s.params.cfgTotal) :
    ∃ t, memWrite .wcfg off bs s = .ok t ∧ WalkReady r t :=
  ⟨_, memWrite_wcfg_eq hin, h⟩

theorem parseLedEntry_completes {r : OpResult} {s : State} {i : Nat} (hi : i < 16)
    (h : WalkReady r s) : ∃ t, parseLedEntry i s = .ok t ∧ WalkReady r t := by
  unfold parseLedEntry
  split
  · exact parseToWcfg_completes h (ledOff_add_size_le s.params hi)
  · exact ⟨s, rfl, h⟩

theorem resetLedEntry_completes {r : OpResult} {s : State} {i : Nat} (hi : i < 16)
    (h : WalkReady r s) : ∃ t, resetLedEntry i s = .ok t ∧ WalkReady r t := by
  have hlen := led_length_le s.params s.params.cfgDefault i
  have hin := ledOff_add_size_le s.params hi
  unfold resetLedEntry
  split
  · exact memWrite_wcfg_completes h (by omega)
  · exact ⟨s, rfl, h⟩

/-- R85: entries that each complete do so in turn, once the sub-submask is read or found short. -/
theorem readLedsub_completes {r : OpResult} {s : State} {f : Nat → State → Res State}
    (hf : ∀ i < 16, ∀ u, WalkReady r u → ∃ t, f i u = .ok t ∧ WalkReady r t) (h : WalkReady r s) :
    ∃ t, readLedsub (allLeds f) s = .ok t ∧ WalkReady r t := by
  rcases short_or_canParse h.1 2 with hs | hc
  · exact ⟨_, readLedsub_short _ hs, h⟩
  · rw [readLedsub_eq (l := half (s.nextBytes 2)) _ hc (le2_half (nextBytes_length s 2)).symm]
    refine runAll_completes _ _ (fun g hg => ?_) _ (h.consumed hc)
    obtain ⟨i, hi, rfl⟩ := List.mem_map.mp hg
    exact hf i (List.mem_range.mp hi)

theorem parseField_completes {r : OpResult} {s : State} (k : SubField) (h : WalkReady r s) :
    ∃ t, parseField k s = .ok t ∧ WalkReady r t := by
  unfold parseField
  split
  · split
    · exact readLedsub_completes (fun _ hi _ => parseLedEntry_completes hi) h
    · exact parseToWcfg_completes h (cfgOff_add_size_le s.params k)
  · exact ⟨s, rfl, h⟩

theorem resetField_completes {r : OpResult} {s : State} (k : SubField) (h : WalkReady r s) :
    ∃ t, resetField k s = .ok t ∧ WalkReady r t := by
  have hlen := field_length_le s.params s.params.cfgDefault k
  have hin := cfgOff_add_size_le s.params k
  unfold resetField
  split
  · split
    · exact readLedsub_completes (fun _ hi _ => resetLedEntry_completes hi) h
    · exact memWrite_wcfg_completes h (by omega)
  · exact ⟨s, rfl, h⟩

/-- R84: sub-fields that each complete do so in turn. -/
theorem walkFields_completes {w : SubWalk} {r : OpResult} {s : State}
    (hrow : ∀ k u, WalkReady r u → ∃ t, subRow k w u = .ok t ∧ WalkReady r t) (h : WalkReady r s) :
    ∃ t, walkFields w s = .ok t ∧ WalkReady r t := by
  refine runAll_completes _ _ (fun g hg => ?_) s h
  obtain ⟨k, -, rfl⟩ := List.mem_map.mp hg
  exact hrow k

theorem parsePartial_completes {s : State} (sub : Half) (h : s.readerBounded) :
    ∃ t, parsePartial sub s = .ok t ∧ t.out.result = s.out.result := by
  obtain ⟨t, ht, -, hres⟩ := walkFields_completes (w := .parse)
    (fun k _ => parseField_completes k) (s := (s.setSub sub).setOk true) ⟨h, rfl⟩
  exact ⟨t, ht, hres⟩

theorem resetPartial_completes {s : State} (sub : Half) (h : s.readerBounded) :
    ∃ t, resetPartial sub s = .ok t ∧ t.out.result = s.out.result := by
  obtain ⟨t, ht, -, hres⟩ := walkFields_completes (w := .reset)
    (fun k _ => resetField_completes k) (s := (s.setSub sub).setOk true) ⟨h, rfl⟩
  exact ⟨t, ht, hres⟩

end Sys2Proof.Machine
end

section
/-! The configuration operations of the dispatcher, its requests, and its Response
(45_dispatcher_config_ops.md, R240 to R247), from R82's tuples. -/

namespace Sys2Proof.Machine

/-! ### Rows with R82's tuples (R82, R205) -/

/-- A selected operation whose tuple is one field, with its bytes there, acts on the value it decodes. -/
theorem exec_cmd_of_field {op : CmdOp} {t : FieldType} {s : State}
    (hpay : defaultPayload s.params op = [t]) (hr82 : s.usesR82 op) (hsel : s.selected op = true)
    (hparse : s.canParse (fieldSize t)) :
    exec op.instr s = outcome (act op [decodeField t (s.nextBytes (fieldSize t))]
      ((s.setSeq op.seq).consumed (fieldSize t))) := by
  rw [exec_cmd, slotOf_r82 hr82 hsel (by rw [hpay]; rfl) hparse, hpay, decodeTuple_nextBytes]

/-- A selected operation without a payload acts at once. -/
theorem exec_cmd_of_noPayload {op : CmdOp} {s : State} (hpay : defaultPayload s.params op = [])
    (hr82 : s.usesR82 op) (hsel : s.selected op = true) :
    exec op.instr s = outcome (act op [] (s.setSeq op.seq)) := by
  rw [exec_cmd, slotOf_r82_nil hr82 hsel hpay]

/-- A selected operation whose tuple is one field, and short of its bytes, raises `E_PARSE`. -/
theorem exec_cmd_of_field_short {op : CmdOp} {t : FieldType} {s : State}
    (hpay : defaultPayload s.params op = [t]) (hr82 : s.usesR82 op) (hsel : s.selected op = true)
    (hshort : s.short (fieldSize t)) :
    exec op.instr s = .next ((s.setSeq op.seq).raise .parse (.op op)) := by
  rw [exec_cmd, slotOf_r82_short hr82 hsel (by rw [hpay]; rfl) hshort, outcome_ok]

/-- A selected partial operation takes its submask, and goes on from it. -/
theorem exec_cmd_of_submask {op : CmdOp} {f : Half → State → Res State} {s : State} {sub : Half}
    (hpay : defaultPayload s.params op = [.u16]) (hact : ∀ v, act op [.u16 v] = f v)
    (hr82 : s.usesR82 op) (hsel : s.selected op = true) (hparse : s.canParse 2)
    (hbytes : s.nextBytes 2 = le2 sub) :
    exec op.instr s = outcome (f sub ((s.setSeq op.seq).consumed 2)) := by
  have hval : decodeField .u16 (s.nextBytes 2) = .u16 sub := by
    rw [hbytes, decodeField, half_le2]
  rw [exec_cmd_of_field hpay hr82 hsel hparse]
  exact congrArg outcome (congrFun ((congrArg (act op [·]) hval).trans (hact sub)) _)

/-! ### Storing a whole record (R240, R241) -/

theorem opSetEepromData_eq {s : State} {r : List Byte} (h : r.length = s.params.cfgTotal) :
    opSetEepromData [.bytes r] s = validateAndCommit .setEepromData (s.wroteWcfg 0 r) := by
  rw [opSetEepromData, recordOperand_bytes _ h, memWrite_wcfg_eq (by omega), bind_ok]

theorem opReinitEepromData_eq {s : State} (h : s.params.wf = true) :
    opReinitEepromData s = commitAndAck .reinitEepromData (s.wroteWcfg 0 s.params.cfgDefault) := by
  have hlen := (Params.wf_default h).1
  rw [opReinitEepromData, memWrite_wcfg_eq (by omega), bind_ok]

/-- R240: the parsed record stands in WCFG, and what follows is the end that all stores share. -/
theorem exec_setEepromData_of_canParse {s : State} (hr82 : s.usesR82 .setEepromData)
    (hsel : s.selected .setEepromData = true) (hparse : s.canParse s.params.cfgTotal) :
    exec .setEepromData s = outcome (validateAndCommit .setEepromData
      (((s.setSeq 0).consumed s.params.cfgTotal).wroteWcfg 0 (s.nextBytes s.params.cfgTotal))) :=
  (exec_cmd_of_field (op := .setEepromData) (t := .bytes s.params.cfgTotal) rfl hr82 hsel hparse).trans
    (congrArg outcome (opSetEepromData_eq (nextBytes_length s s.params.cfgTotal)))

/-- Settles O31: the working copy holds exactly the parsed record, so the validity test, the store and the
live system all see that record. -/
theorem setEepromData : Obligations.SetEepromData := by
  intro s hwf hr82 hsel r u
  have hrec : u.wcfgRecord = r := wcfgRecord_wroteWcfg hwf (nextBytes_length s s.params.cfgTotal)
  have hexec (hparse : s.canParse s.params.cfgTotal) :
      exec .setEepromData s = outcome (validateAndCommit .setEepromData u) :=
    exec_setEepromData_of_canParse hr82 hsel hparse
  refine ⟨fun hparse hvalid hok => ?stored, fun hparse hvalid a herr => ?refused,
    fun hparse hinvalid => ?invalid, fun hshort => ?short, rfl⟩
  case stored =>
    rw [hexec hparse, validateAndCommit_of_valid (by rwa [hrec]), commitAndAck_of_ok (s := u) hok,
      hrec, outcome_ok]
  case refused =>
    rw [hexec hparse, validateAndCommit_of_valid (by rwa [hrec]), commitAndAck_of_err (s := u) herr,
      hrec, outcome_ok]
  case invalid => rw [hexec hparse, validateAndCommit_of_invalid (by rwa [hrec]), outcome_ok]
  case short =>
    exact exec_cmd_of_field_short (op := .setEepromData) (t := .bytes s.params.cfgTotal) rfl hr82 hsel
      hshort

/-- R241: the defaults stand in WCFG, and are committed without a validity test. -/
theorem exec_reinitEepromData {s : State} (hp : s.params.wf = true) (hr82 : s.usesR82 .reinitEepromData)
    (hsel : s.selected .reinitEepromData = true) :
    exec .reinitEepromData s = outcome (commitAndAck .reinitEepromData
      ((s.setSeq 1).wroteWcfg 0 s.params.cfgDefault)) :=
  (exec_cmd_of_noPayload (op := .reinitEepromData) rfl hr82 hsel).trans
    (congrArg outcome (opReinitEepromData_eq hp))

/-- Settles O32: WF8 gives the defaults the length of the working copy, which therefore holds them. -/
theorem reinitEepromData : Obligations.ReinitEepromData := by
  intro s hwf hp hr82 hsel
  let u := (s.setSeq 1).wroteWcfg 0 s.params.cfgDefault
  have hrec : u.wcfgRecord = s.params.cfgDefault := wcfgRecord_wroteWcfg hwf (Params.wf_default hp).1
  have hexec : exec .reinitEepromData s = outcome (commitAndAck .reinitEepromData u) :=
    exec_reinitEepromData hp hr82 hsel
  refine ⟨fun hok => ?stored, fun a herr => ?refused, rfl⟩
  case stored => rw [hexec, commitAndAck_of_ok (s := u) hok, hrec, outcome_ok]
  case refused => rw [hexec, commitAndAck_of_err (s := u) herr, hrec, outcome_ok]

/-! ### Replies of a fixed layout (R242, R246, R247) -/

theorem opReqEepromData_eq {s : State} (hp : s.params.wf = true) (hw : s.wr.buf.wf = true)
    (hlive : s.env.liveCfg.length = s.params.cfgTotal) :
    opReqEepromData s = .ok ((((s.record .readConfig).setRecord s.env.liveCfg).sentFrame .large
      (le4 s.params.typeCommand ++ le4 (s.params.cmdMask .setEepromData) ++ s.env.liveCfg)).ackOp
        .reqEepromData) := by
  obtain ⟨-, hlarge, -, -⟩ := Params.wf_capacities hp
  have hroom : 8 + s.env.liveCfg.length ≤ s.params.capLarge := by omega
  refine reply_eq (.op .reqEepromData) ((s.record .readConfig).setRecord s.env.liveCfg)
    (State.ackOp · .reqEepromData) ?_ rfl hw hroom hroom
  exact put_bind (room_begun (c := .large) hroom hroom _ _)

/-- Settles O33: WF5 leaves room for the whole record after the header. -/
theorem reqEepromData : Obligations.ReqEepromData := fun s hp hw hlive hr82 hsel =>
  ⟨(exec_cmd_of_noPayload (op := .reqEepromData) rfl hr82 hsel).trans
    (congrArg outcome (opReqEepromData_eq (s := s.setSeq 2) hp hw hlive)), rfl⟩

/-- R77: the flags byte is the two log flags as a two-bit number. -/
theorem recFlags_eq (isOpen isLocked : Bool) :
    recFlags isOpen isLocked = BitVec.ofNat 8 (isOpen.toNat + 2 * isLocked.toNat) := by
  cases isOpen <;> cases isLocked <;> rfl

theorem opReqCardRecordingState_eq {s : State} (hp : s.params.wf = true) (hw : s.wr.buf.wf = true) :
    opReqCardRecordingState s = .ok ((((s.record (.logIsOpen s.env.logOpen)).record
      (.logIsLocked s.env.logLocked)).sentFrame .small
        (le4 s.params.typeCommand ++
          le4 (s.params.cmdMask .setSdWriteDelay ||| s.params.cmdMask .setCardRecording) ++
          (le2 s.ctl.logInterval ++ [recFlags s.env.logOpen s.env.logLocked]))).ackOp
      .reqCardRecordingState) := by
  obtain ⟨-, hlarge, hsmall, -⟩ := Params.wf_capacities hp
  let u := (s.record (.logIsOpen s.env.logOpen)).record (.logIsLocked s.env.logLocked)
  have hcap : 8 + (2 + 1) ≤ s.params.cap .small := le_trans (by omega) hsmall
  have hbuf : 8 + (2 + 1) ≤ s.params.capLarge := by omega
  refine reply_eq (.op .reqCardRecordingState) u (State.ackOp · .reqCardRecordingState) ?_ rfl hw
    hcap hbuf
  refine (put_bind (room_begun (n := 2) (by omega) (by omega) _ _)).trans ?_
  rw [← appended_appended]
  exact put_bind (room_appended (s := u.begun _ _ _) (room_begun hcap hbuf _ _))

theorem opReqResponse_eq {s : State} (hp : s.params.wf = true) (hw : s.wr.buf.wf = true) :
    opReqResponse s = .ok (s.sentFrame .small
      (le4 s.params.typeResponse ++ le4 s.disp.m ++ le4 s.disp.ack)) := by
  obtain ⟨-, hlarge, hsmall, -⟩ := Params.wf_capacities hp
  have hbuf : 12 ≤ s.params.capLarge := by omega
  refine reply_eq (.op .reqResponse) s id ?_ rfl hw hsmall hbuf
  rw [Except.map_id]
  exact put_bind (room_begun (c := .small) hsmall hbuf _ _)

/-- Settles O38: the log queries come after the header and touch neither the writer nor the control
registers, and WF6 leaves room for the three bytes. -/
theorem reqCardRecordingState : Obligations.ReqCardRecordingState := by
  intro s hp hw hr82 hsel
  rw [← recFlags_eq, List.append_assoc]
  exact ⟨(exec_cmd_of_noPayload (op := .reqCardRecordingState) rfl hr82 hsel).trans
    (congrArg outcome (opReqCardRecordingState_eq (s := s.setSeq 22) hp hw)), rfl⟩

/-- Settles O39: the ack word is appended as it stands, and no rule sets a bit of it. -/
theorem reqResponse : Obligations.ReqResponse := fun s hp hw hr82 hsel =>
  ⟨(exec_cmd_of_noPayload (op := .reqResponse) rfl hr82 hsel).trans
    (congrArg outcome (opReqResponse_eq (s := s.setSeq 23) hp hw)), rfl⟩

/-! ### The partial request (R245) -/

theorem requestLedsub_of_clear {s : State} (h : s.subSelected .ledStates = false) :
    requestLedsub s = .ok ((s.setLedsub 0#16).setOk true) := by
  rw [requestLedsub, h, if_neg Bool.false_ne_true]

theorem requestLedsub_of_set {s : State} {ledsub : Half} (h : s.subSelected .ledStates = true)
    (hparse : s.canParse 2) (hbytes : s.nextBytes 2 = le2 ledsub) :
    requestLedsub s = .ok (((s.consumed 2).setLedsub ledsub).setOk true) := by
  rw [requestLedsub, if_pos h]
  exact readLedsub_eq (s := (s.setLedsub 0#16).setOk true) .ok hparse hbytes

theorem requestLedsub_of_short {s : State} (h : s.subSelected .ledStates = true) (hshort : s.short 2) :
    requestLedsub s = .ok ((s.setLedsub 0#16).setOk false) := by
  rw [requestLedsub, if_pos h]
  exact readLedsub_short (s := (s.setLedsub 0#16).setOk true) .ok hshort

theorem replyPartial_eq {s : State} (hp : s.params.wf = true) (hw : s.wr.buf.wf = true)
    (hlive : s.env.liveCfg.length = s.params.cfgTotal) :
    replyPartial s = .ok ((((s.record .readConfig).setRecord s.env.liveCfg).sentFrame .large
      (le4 s.params.typeCommand ++ le4 (s.params.cmdMask .setPartialEepromData) ++
        s.params.partialLayout s.env.liveCfg s.disp.sub s.disp.ledsub)).ackOp
          .reqPartialEepromData) := by
  obtain ⟨-, hlarge, -, -⟩ := Params.wf_capacities hp
  have hlen := partialLayout_length_le s.params hlive s.disp.sub s.disp.ledsub
  have hroom : 8 + (s.params.partialLayout s.env.liveCfg s.disp.sub s.disp.ledsub).length ≤
    s.params.capLarge := by omega
  refine reply_eq (.op .reqPartialEepromData) ((s.record .readConfig).setRecord s.env.liveCfg)
    (State.ackOp · .reqPartialEepromData) ?_ rfl hw hroom hroom
  exact writePartial_bind (s := ((s.record .readConfig).setRecord s.env.liveCfg).begun _ _ _)
    (room_begun (c := .large) hroom hroom _ _)

theorem opReqPartialEepromData_of_ok {s t : State} {sub : Half}
    (h : requestLedsub (s.setSub sub) = .ok t) (hok : t.disp.ok = true) :
    opReqPartialEepromData sub s = replyPartial t := by
  rw [opReqPartialEepromData, h, bind_ok, if_pos hok]

theorem opReqPartialEepromData_of_fail {s t : State} {sub : Half}
    (h : requestLedsub (s.setSub sub) = .ok t) (hfail : t.disp.ok = false) :
    opReqPartialEepromData sub s = .ok (t.raise .parse (.op .reqPartialEepromData)) := by
  rw [opReqPartialEepromData, h, bind_ok, hfail, if_neg Bool.false_ne_true]

/-- The next unread bytes are `bs` (R140, R141). -/
def State.carries (s : State) (bs : List Byte) : Prop :=
  s.canParse bs.length ∧ s.nextBytes bs.length = bs

/-- Two sequences that follow one another are read one after the other (R141). -/
theorem State.carries.of_append {s : State} {xs ys : List Byte} (h : s.carries (xs ++ ys)) :
    s.carries xs ∧ (s.consumed xs.length).carries ys := by
  obtain ⟨⟨hpos, hlen⟩, hbytes⟩ := h
  rw [List.length_append] at hpos
  rw [State.nextBytes, List.length_append, Memory.readBytes_add] at hbytes
  obtain ⟨hxs, hys⟩ := List.append_inj hbytes (Memory.readBytes_length ..)
  have hrest : s.rd.pos + xs.length + ys.length ≤ s.rd.len := by omega
  exact ⟨⟨⟨by omega, hlen⟩, hxs⟩, ⟨⟨hrest, hlen⟩, hys⟩⟩

/-- R245: the words after the submask, taken from the payload, leave both selections in their registers. -/
theorem requestLedsub_of_requestWords {s : State} {sub ledsub : Half}
    (hclear : sub.getLsbD (s.params.subBitOf .ledStates) = false → ledsub = 0#16)
    (h : s.carries (s.params.requestWords sub ledsub)) :
    requestLedsub ((s.consumed 2).setSub sub) = .ok
      ((((s.consumed (s.params.requestWords sub ledsub).length).setSub sub).setLedsub ledsub).setOk
        true) := by
  by_cases hled : sub.getLsbD (s.params.subBitOf .ledStates) = true
  · have hwords : s.params.requestWords sub ledsub = le2 sub ++ le2 ledsub := by
      rw [Params.requestWords, if_pos hled]
    rw [hwords] at h ⊢
    obtain ⟨hparse, hbytes⟩ := h.of_append.2
    exact requestLedsub_of_set (s := (s.consumed 2).setSub sub) hled hparse hbytes
  · have hwords : s.params.requestWords sub ledsub = le2 sub := by
      rw [Params.requestWords, if_neg hled, List.append_nil]
    have hoff : sub.getLsbD (s.params.subBitOf .ledStates) = false := by simpa using hled
    rw [hwords, hclear hoff]
    exact requestLedsub_of_clear hoff

/-- Settles O36: the parse of the request alone decides between the reply, for which WF5 leaves room, and
`E_PARSE`. -/
theorem reqPartialEepromData : Obligations.ReqPartialEepromData := by
  intro s sub ledsub hp hw hlive hr82 hsel
  have hexec (hparse : s.canParse 2) (hbytes : s.nextBytes 2 = le2 sub) :
      exec .reqPartialEepromData s =
        outcome (opReqPartialEepromData sub ((s.setSeq 21).consumed 2)) :=
    exec_cmd_of_submask (op := .reqPartialEepromData) rfl (fun _ => rfl) hr82 hsel hparse hbytes
  refine ⟨fun hclear hparse hbytes => ?replied, fun hshort => ?noSubmask,
    fun hparse hbytes hled hshort => ?noSubSubmask, rfl⟩
  case replied =>
    have hwords : s.carries (s.params.requestWords sub ledsub) := ⟨hparse, hbytes⟩
    obtain ⟨hparse2, hbytes2⟩ := hwords.of_append.1
    have hrequest := requestLedsub_of_requestWords (s := s.setSeq 21) hclear hwords
    let t := ((((s.setSeq 21).consumed (s.params.requestWords sub ledsub).length).setSub sub).setLedsub
      ledsub).setOk true
    rw [hexec hparse2 hbytes2, opReqPartialEepromData_of_ok hrequest rfl]
    exact congrArg outcome (replyPartial_eq (s := t) hp hw hlive)
  case noSubmask =>
    exact exec_cmd_of_field_short (op := .reqPartialEepromData) (t := .u16) rfl hr82 hsel hshort
  case noSubSubmask =>
    have hrequest := requestLedsub_of_short (s := ((s.setSeq 21).consumed 2).setSub sub) hled hshort
    rw [hexec hparse hbytes, opReqPartialEepromData_of_fail hrequest rfl, outcome_ok]

/-! ### The outcomes of the partial operations (R243, R244) -/

/-- A partial operation from its submask on: the persisted record is loaded, the walk runs on it, and its
end decides (R243, R244). -/
def partialOperation (op : CmdOp) (walk : Half → State → Res State) (sub : Half) (s : State) :
    Res State :=
  (loadPersisted (s.setSub sub)).bind fun t => (walk sub t).bind (finishPartial op)

theorem act_setPartialEepromData (sub : Half) :
    act .setPartialEepromData [.u16 sub] =
      partialOperation .setPartialEepromData parsePartial sub := rfl

theorem act_reinitPartialEepromData (sub : Half) :
    act .reinitPartialEepromData [.u16 sub] =
      partialOperation .reinitPartialEepromData resetPartial sub := rfl

theorem exec_parsePartial (sub : Half) (s : State) :
    exec (.parsePartial sub) s =
      outcome ((parsePartial sub s).map fun t => t.setResult (.flag t.disp.ok)) := rfl

theorem exec_resetPartial (sub : Half) (s : State) :
    exec (.resetPartial sub) s =
      outcome ((resetPartial sub s).map fun t => t.setResult (.flag t.disp.ok)) := rfl

theorem finishPartial_eq (op : CmdOp) (t : State) : finishPartial op t = .ok (t.partialOutcome op) := by
  rw [finishPartial, validateAndCommit_eq, State.partialOutcome]
  cases t.disp.ok <;> cases t.params.configValid t.wcfgRecord <;> rfl

theorem partialOperation_eq {op : CmdOp} {walk : Half → State → Res State} {s t : State} {sub : Half}
    (hpersist : s.env.persist.length = s.params.cfgTotal)
    (hwalk : walk sub (s.partialBase op sub) = .ok t) :
    partialOperation op walk sub (s.took op) = .ok (t.partialOutcome op) := by
  have hload : loadPersisted ((s.took op).setSub sub) = .ok (s.partialBase op sub) :=
    loadPersisted_eq hpersist
  rw [partialOperation, hload, bind_ok, hwalk, bind_ok, finishPartial_eq]

theorem setResult_setResult_of_result {s : State} {r : OpResult} (h : s.out.result = r)
    (q : OpResult) : (s.setResult q).setResult r = s := by
  subst h
  rfl

/-- R45: the invariant has the store hold a whole record. -/
theorem State.Inv.persist_length {s : State} (h : s.Inv) :
    s.env.persist.length = s.params.cfgTotal := by
  have henv := h.env
  simp only [State.envOk, Env.wf, Bool.and_eq_true, beq_iff_eq] at henv
  obtain ⟨⟨⟨⟨hpersist, -⟩, -⟩, -⟩, -⟩ := henv
  exact hpersist

/-- R243, R244: a partial operation that takes its submask ends as the outcome of its walk, whose own row
`row` differs only in the result register; one that does not take it raises `E_PARSE`. -/
theorem exec_partialOperation {op : CmdOp} {walk : Half → State → Res State} {row : Instr} {s : State}
    {sub : Half} (hinv : s.Inv) (hr82 : s.usesR82 op) (hsel : s.selected op = true)
    (hpay : defaultPayload s.params op = [.u16])
    (hact : ∀ v, act op [.u16 v] = partialOperation op walk v)
    (hrow : ∀ u, exec row u = outcome ((walk sub u).map fun t => t.setResult (.flag t.disp.ok)))
    (hwalk : ∀ u : State, u.readerBounded → ∃ t, walk sub u = .ok t ∧ t.out.result = u.out.result) :
    (s.short 2 → exec op.instr s = .next ((s.setSeq op.seq).raise .parse (.op op))) ∧
    (s.canParse 2 → s.nextBytes 2 = le2 sub →
      ∃ t, exec row (s.partialBase op sub) = .next t ∧
        exec op.instr s = .next ((t.setResult s.out.result).partialOutcome op)) := by
  refine ⟨exec_cmd_of_field_short hpay hr82 hsel, fun hparse hbytes => ?_⟩
  have htook : s.took op = (s.setSeq op.seq).consumed 2 := by
    rw [State.took, State.tupleBytes, hr82, hpay]
    rfl
  have hbounded : (s.partialBase op sub).readerBounded := by
    rw [State.partialBase, htook]
    exact hparse
  obtain ⟨t, hrun, hres⟩ := hwalk (s.partialBase op sub) hbounded
  refine ⟨_, by rw [hrow, hrun, map_ok, outcome_ok], ?_⟩
  rw [exec_cmd_of_submask hpay hact hr82 hsel hparse hbytes, ← htook,
    partialOperation_eq hinv.persist_length hrun, outcome_ok,
    setResult_setResult_of_result (r := s.out.result) hres]

/-- Settles O37: the invariant gives the store a whole record to load and the walk a bounded reader, so
the walk runs to its end. -/
theorem partialOperationOutcomes : Obligations.PartialOperationOutcomes := by
  intro s sub hinv
  refine ⟨fun hr82 hsel => ?set, fun hr82 hsel => ?reinit, rfl⟩
  case set =>
    exact exec_partialOperation (op := .setPartialEepromData) hinv hr82 hsel rfl
      act_setPartialEepromData (exec_parsePartial sub) fun _ => parsePartial_completes sub
  case reinit =>
    exact exec_partialOperation (op := .reinitPartialEepromData) hinv hr82 hsel rfl
      act_reinitPartialEepromData (exec_resetPartial sub) fun _ => resetPartial_completes sub

end Sys2Proof.Machine
end

section
/-! The Telemetry Encoder (46_telemetry.md): what a STATE row appends (R88, R270 to R296), the length of a
State body (R263), and the frame that `EMIT` builds and hands to its destination (R261). -/

namespace Sys2Proof

/-! ### `StateLen` (R263): by recursion over the rows of the table -/

theorem stateLenOf_eq_sum (mask : Word) (rows : List TelemetryRow) :
    stateLenOf mask rows =
      ((rows.filter fun r => mask.getLsbD r.bit).map TelemetryRow.size).sum := by
  induction rows with
  | nil => rfl
  | cons r rows ih => cases h : mask.getLsbD r.bit <;> simp [stateLenOf, h, ih]

theorem stateLenOf_zero (rows : List TelemetryRow) : stateLenOf 0#32 rows = 0 := by
  simp [stateLenOf_eq_sum]

theorem stateLenOf_le_sum (mask : Word) (rows : List TelemetryRow) :
    stateLenOf mask rows ≤ (rows.map TelemetryRow.size).sum := by
  rw [stateLenOf_eq_sum]
  exact (List.filter_sublist.map _).sum_le_sum fun _ _ => Nat.zero_le _

theorem Params.stateLen_le_max (p : Params) (mask : Word) : p.stateLen mask ≤ p.stateLenMax :=
  stateLenOf_le_sum mask p.telemetryFields

theorem getLsbD_eq_false_of_disjoint {a b : Word} (h : a &&& b = 0#32) {i : Nat}
    (ha : a.getLsbD i = true) : b.getLsbD i = false := by
  have hand : (a &&& b).getLsbD i = false := by rw [h, BitVec.getLsbD_zero]
  rwa [BitVec.getLsbD_and, ha, Bool.true_and] at hand

/-- No row is counted twice for two disjoint masks. -/
theorem stateLenOf_or {a b : Word} (h : a &&& b = 0#32) (rows : List TelemetryRow) :
    stateLenOf (a ||| b) rows = stateLenOf a rows + stateLenOf b rows := by
  induction rows with
  | nil => rfl
  | cons r rows ih =>
    simp only [stateLenOf, BitVec.getLsbD_or, ih]
    cases ha : a.getLsbD r.bit with
    | true => simp [getLsbD_eq_false_of_disjoint h ha, Nat.add_assoc]
    | false => simp [Nat.add_left_comm]

end Sys2Proof

namespace Sys2Proof.Machine

theorem exec_stateLen (mask : Word) (s : State) :
    exec (.stateLen mask) s = .next (s.setResult (.count (s.params.stateLen mask))) := rfl

theorem stateBody_length (p : Params) (t : Telem) : (stateBody p t).length = p.stateLen t.eff := by
  rw [stateBody, Params.stateLen]
  induction p.telemetryFields with
  | nil => rfl
  | cons r rows ih =>
    rw [List.flatMap_cons, List.length_append, ih, stateLenOf]
    split
    · rw [rowBytes_length]
    · rfl

/-- Settles O53: `StateLen` and the State body go through the same rows of the table, and a selected row
appends as many bytes as its size column says. -/
theorem stateLength : Obligations.StateLength := by
  refine ⟨fun s mask => ?sum, rowBytes_length, stateBody_length, fun p a b h => ?additive,
    rfl, rfl, rfl, fun p => stateLenOf_zero _⟩
  case sum => rw [exec_stateLen, Params.stateLen, stateLenOf_eq_sum]
  case additive => exact stateLenOf_or h p.telemetryFields

/-! ### A STATE row with R88's width (R88, R89) -/

theorem name_of_rowOf {p : Params} {f : TelField} {r : TelemetryRow} (h : Params.rowOf p f = some r) :
    r.name = .field f := by
  simpa using List.find?_some h

theorem rowBytes_of_field {t : Telem} {f : TelField} {r : TelemetryRow} (hname : r.name = .field f)
    (hsize : r.size = f.size) : t.rowBytes r = t.fieldBytes f := by
  rw [Telem.rowBytes, hname]
  exact if_pos hsize

theorem emitRow_of_selected {r : TelemetryRow} {s : State} (hsel : s.effSelected r.bit = true)
    (hroom : s.room r.size) : emitRow r s = .ok (s.appended (s.tel.rowBytes r)) := by
  rw [emitRow, if_pos hsel, put_eq (by rwa [rowBytes_length])]

theorem stateRow_of_rowOf {f : TelField} {r : TelemetryRow} {s : State}
    (h : Params.rowOf s.params f = some r) : stateRow f s = emitRow r s := by
  rw [stateRow, h]

/-- A row of R88's width whose bit is set appends its field's value, where there is room. -/
theorem exec_tel_of_emits {f : TelField} {s : State} (hemits : s.emits f) (hroom : s.room f.size) :
    exec f.instr s = .next (s.appended (s.tel.fieldBytes f)) := by
  obtain ⟨r, ⟨hrow, hsel⟩, hsize⟩ := hemits
  rw [exec_tel, stateRow_of_rowOf hrow, emitRow_of_selected hsel (by rwa [hsize]),
    rowBytes_of_field (name_of_rowOf hrow) hsize, outcome_ok]

/-- Settles O47: each row appends the value that `Telem.fieldBytes` gives its field. -/
theorem scalarTelemetryRows : Obligations.ScalarTelemetryRows := fun _ =>
  ⟨exec_tel_of_emits (f := .micros), exec_tel_of_emits (f := .status), exec_tel_of_emits (f := .v0),
    exec_tel_of_emits (f := .i0), exec_tel_of_emits (f := .i1), exec_tel_of_emits (f := .temperature),
    exec_tel_of_emits (f := .pressure), exec_tel_of_emits (f := .auxChanMask),
    exec_tel_of_emits (f := .kineAltitude), exec_tel_of_emits (f := .loopCount), rfl⟩

/-- Settles O48: `Triple.bytes` puts x first, and the room of 12 bytes is that of each of the five. -/
theorem tripleTelemetryRows : Obligations.TripleTelemetryRows := fun _ hroom =>
  ⟨(exec_tel_of_emits (f := .accel) · hroom), (exec_tel_of_emits (f := .gyro) · hroom),
    (exec_tel_of_emits (f := .mag) · hroom), (exec_tel_of_emits (f := .kineAngle) · hroom),
    (exec_tel_of_emits (f := .kineRate) · hroom), rfl⟩

/-- The eight PID fields, each with its own tuple of the snapshot (R284 to R291). -/
def Telem.pidFields (t : Telem) : List (TelField × PidTuple) :=
  [(.pidFzMaster, t.snap.pidFzMaster), (.pidTxMaster, t.snap.pidTxMaster),
    (.pidTyMaster, t.snap.pidTyMaster), (.pidTzMaster, t.snap.pidTzMaster),
    (.pidFzSlave, t.snap.pidFzSlave), (.pidTxSlave, t.snap.pidTxSlave),
    (.pidTySlave, t.snap.pidTySlave), (.pidTzSlave, t.snap.pidTzSlave)]

theorem fieldBytes_of_mem_pidFields {t : Telem} {f : TelField} {q : PidTuple}
    (h : (f, q) ∈ t.pidFields) : f.size = 24 ∧ t.fieldBytes f = q.bytes := by
  have hall : ∀ x ∈ t.pidFields, x.1.size = 24 ∧ t.fieldBytes x.1 = x.2.bytes := by
    simp [Telem.pidFields, TelField.size, Telem.fieldBytes]
  exact hall _ h

/-- Settles O49: a PID field's bytes are those of its own tuple, in the order of `PidTuple.bytes`. -/
theorem pidTelemetryRows : Obligations.PidTelemetryRows := by
  refine ⟨rfl, fun s hroom f t hmem hemits => ?_⟩
  obtain ⟨hsize, hbytes⟩ := fieldBytes_of_mem_pidFields (t := s.tel) hmem
  rw [exec_tel_of_emits hemits (by rwa [hsize]), hbytes, PidTuple.bytes]

/-- The bytes of a vector of 16-bit values, by index. -/
theorem halvesBytes_toList {n : Nat} (v : Vector Half n) :
    halvesBytes v.toList = (List.finRange n).flatMap fun i => le2 v[i] := by
  have hlist : v.toList = (List.finRange n).map fun i => v[i] :=
    List.ext_getElem (by simp) fun i h1 h2 => by simp
  rw [halvesBytes, hlist, List.flatMap_map]

theorem fieldBytes_rxPpm (t : Telem) :
    t.fieldBytes .rxPpm = le2 t.snap.rxPpm[0] ++ le2 t.snap.rxPpm[1] ++ le2 t.snap.rxPpm[2] ++
      le2 t.snap.rxPpm[3] ++ le2 t.snap.rxPpm[4] ++ le2 t.snap.rxPpm[5] := by
  rw [Telem.fieldBytes, halvesBytes_toList]
  rfl

theorem fieldBytes_motorOut (t : Telem) :
    t.fieldBytes .motorOut = le2 t.snap.motorOut[0] ++ le2 t.snap.motorOut[1] ++
      le2 t.snap.motorOut[2] ++ le2 t.snap.motorOut[3] ++ le2 t.snap.motorOut[4] ++
      le2 t.snap.motorOut[5] ++ le2 t.snap.motorOut[6] ++ le2 t.snap.motorOut[7] := by
  rw [Telem.fieldBytes, halvesBytes_toList]
  rfl

/-- Settles O50: the two vectors are appended by ascending index, the two records in the order of
`Axes.bytes` and `ForceTorque.bytes`. -/
theorem arrayTelemetryRows : Obligations.ArrayTelemetryRows := by
  intro s
  refine ⟨fun hemits hroom => ?rxPpm, exec_tel_of_emits (f := .commands),
    exec_tel_of_emits (f := .fAndT), fun hemits hroom => ?motorOut, rfl⟩
  case rxPpm => exact fieldBytes_rxPpm s.tel ▸ exec_tel_of_emits (f := .rxPpm) hemits hroom
  case motorOut => exact fieldBytes_motorOut s.tel ▸ exec_tel_of_emits (f := .motorOut) hemits hroom

/-! ### The body and the frame of `EMIT` (R89, R261 steps (4) to (7)) -/

/-- Rows in table order append what each contributes, one after the other. -/
theorem runAll_emitRow_eq {rows : List TelemetryRow} {s : State}
    (hroom : s.room (stateLenOf s.tel.eff rows)) :
    runAll (rows.map emitRow) s =
      .ok (s.appended
        (rows.flatMap fun r => if s.tel.eff.getLsbD r.bit then s.tel.rowBytes r else [])) := by
  induction rows generalizing s with
  | nil => rfl
  | cons r rows ih =>
    have hlen : (if s.tel.eff.getLsbD r.bit then s.tel.rowBytes r else []).length =
        if s.tel.eff.getLsbD r.bit then r.size else 0 := by
      split
      · exact rowBytes_length ..
      · rfl
    rw [stateLenOf, ← hlen] at hroom
    have hrow := emitRow_eq r s ⟨le_trans (by omega) hroom.1, le_trans (by omega) hroom.2⟩
    rw [List.map_cons, runAll_cons, hrow, bind_ok, ih (room_appended hroom), appended_appended]
    rfl

theorem emitRows_eq {s : State} (hroom : s.room (s.params.stateLen s.tel.eff)) :
    emitRows s = .ok (s.appended (stateBody s.params s.tel)) := runAll_emitRow_eq hroom

/-- A frame begun and filled is handed whole to either destination (R148). -/
theorem sendFrame_begun_to {w : Site} (d : Dest) {c : FrameClass} {type mask : Word} {body : List Byte}
    {s : State} (hw : s.wr.buf.wf = true) (h : 8 + body.length ≤ s.params.capLarge) :
    sendFrame w d ((s.begun c type mask).appended body) =
      .ok (deliver d (encodeFrame s.params (le4 type ++ le4 mask ++ body))
        { s with wr := ⟨s.wr.buf.writeBytes 0 (le4 type ++ le4 mask ++ body),
          (le4 type ++ le4 mask ++ body).length, s.params.cap c, false, .idle⟩ }) := by
  have hlen : (le4 type ++ le4 mask ++ body).length = 8 + body.length := by simp; omega
  have hread := Memory.readBytes_writeBytes s.wr.buf hw 0 (le4 type ++ le4 mask ++ body)
  have hbuf : (s.wr.buf.writeBytes 0 (le4 type ++ le4 mask)).writeBytes 8 body =
      s.wr.buf.writeBytes 0 (le4 type ++ le4 mask ++ body) :=
    (Memory.writeBytes_append s.wr.buf 0 (le4 type ++ le4 mask) body).symm
  rw [sendFrame_eq rfl h]
  simp only [State.appended, State.begun, hbuf, ← hlen, hread]

/-- The state with one snapshot taken for the effective mask `eff` (R261 step (5)). -/
def State.snapped (s : State) (ts eff : Word) : State :=
  { s.record .snapshotTelemetry with tel := ⟨eff, ts, s.env.live⟩ }

/-- The payload of the State frame of an `EMIT` (R73, R261). -/
def State.statePayload (s : State) (ts eff : Word) : List Byte :=
  le4 s.params.typeState ++ le4 eff ++ stateBody s.params (s.snapped ts eff).tel

/-- The state with one State frame built from one snapshot, and handed to its destination (R261 steps
(4) to (7)). -/
def State.emitted (s : State) (ts eff : Word) (toLog : Bool) : State :=
  deliver (if toLog then .log else .wire) (encodeFrame s.params (s.statePayload ts eff))
    { s.snapped ts eff with
      wr := ⟨s.wr.buf.writeBytes 0 (s.statePayload ts eff), (s.statePayload ts eff).length,
        s.params.capLarge, false, .idle⟩ }

/-- The snapshot is taken after the header is begun, and neither touches what the other does. -/
theorem buildState_eq_bind {s : State} (h : 8 ≤ s.params.capLarge) (ts : Word) (toLog : Bool) :
    buildState ts toLog s =
      (emitRows ((s.snapped ts s.tel.eff).begun .large s.params.typeState s.tel.eff)).bind
        (sendFrame .emit (if toLog then .log else .wire)) := by
  rw [buildState, beginFrame_begun (c := .large) h h, bind_ok]
  rfl

/-- WF7 leaves room for every State body after the header. -/
theorem buildState_eq {s : State} (hp : s.params.wf = true) (hw : s.wr.buf.wf = true) (ts : Word)
    (toLog : Bool) : buildState ts toLog s = .ok (s.emitted ts s.tel.eff toLog) := by
  obtain ⟨-, -, -, hmax⟩ := Params.wf_capacities hp
  have hfit : 8 + s.params.stateLen s.tel.eff ≤ s.params.capLarge :=
    le_trans (Nat.add_le_add_left (s.params.stateLen_le_max _) 8) hmax
  rw [buildState_eq_bind (le_trans (Nat.le_add_right ..) hfit),
    emitRows_eq (room_begun (s := s.snapped ts s.tel.eff) (c := .large) hfit hfit _ _), bind_ok]
  exact sendFrame_begun_to _ (s := s.snapped ts s.tel.eff) hw (by rw [stateBody_length]; exact hfit)

/-! ### The mask and the log gate of `EMIT` (R261 steps (1) to (3)) -/

theorem emitMask_of_zero {mask : Word} {s : State} (h : s.effectiveMask mask = 0#32) (ts : Word)
    (toLog : Bool) :
    emitMask ts mask toLog s = .ok { s with tel := { s.tel with eff := 0#32 } } := if_pos h

theorem emitMask_of_ne_zero {mask : Word} {s : State} (hp : s.params.wf = true)
    (hw : s.wr.buf.wf = true) (h : s.effectiveMask mask ≠ 0#32) (ts : Word) (toLog : Bool) :
    emitMask ts mask toLog s = .ok (s.emitted ts (s.effectiveMask mask) toLog) :=
  (if_neg h).trans
    (buildState_eq (s := { s with tel := { s.tel with eff := s.effectiveMask mask } }) hp hw ts toLog)

/-- The state after the log gate of an `EMIT`: only a destination that is the log is asked (R261). -/
def State.asked (s : State) (toLog : Bool) : State :=
  if toLog then s.record (.logIsOpen s.env.logOpen) else s

@[simp] theorem State.asked_params (s : State) (toLog : Bool) : (s.asked toLog).params = s.params := by
  cases toLog <;> rfl

@[simp] theorem State.asked_wr (s : State) (toLog : Bool) : (s.asked toLog).wr = s.wr := by
  cases toLog <;> rfl

@[simp] theorem State.asked_effectiveMask (s : State) (toLog : Bool) (mask : Word) :
    (s.asked toLog).effectiveMask mask = s.effectiveMask mask := by
  cases toLog <;> rfl

/-- Towards a closed log `EMIT` only asks. -/
theorem exec_emit_of_closed {ts mask : Word} {s : State} (h : s.env.logOpen = false) :
    exec (.emit ts mask true) s = .next (s.asked true) := by
  have hstop : emitState ts mask true s = .ok (s.asked true) := by
    rw [emitState, if_pos rfl]
    exact if_neg (by simp [logIsOpen, h])
  exact congrArg outcome hstop

/-- Towards the link or an open log `EMIT` goes on to its mask. -/
theorem exec_emit_of_open {ts mask : Word} {toLog : Bool} {s : State}
    (h : toLog = false ∨ s.env.logOpen = true) :
    exec (.emit ts mask toLog) s = outcome (emitMask ts mask toLog (s.asked toLog)) := by
  refine congrArg outcome ?_
  cases toLog with
  | false => rfl
  | true => exact if_pos (h.resolve_left Bool.noConfusion)

/-- Settles O52: the log gate changes nothing but the trace, so the mask and the frame are those of the
state `EMIT` starts in. -/
theorem emitSendsOneStateFrame : Obligations.EmitSendsOneStateFrame := by
  intro s ts mask toLog hinv s' x
  obtain ⟨-, hw, -⟩ := hinv.memory
  refine ⟨fun hlog hclosed => ?closed, fun hopen hzero => ?nothing, fun hopen hne => ?sent⟩
  case closed =>
    subst hlog
    exact exec_emit_of_closed hclosed
  case nothing =>
    rw [exec_emit_of_open hopen, emitMask_of_zero (by rwa [State.asked_effectiveMask]), outcome_ok]
    cases toLog <;> rfl
  case sent =>
    rw [exec_emit_of_open hopen, emitMask_of_ne_zero (by rw [State.asked_params]; exact hinv.params)
      (by rwa [State.asked_wr]) (by rwa [State.asked_effectiveMask]), outcome_ok]
    cases toLog <;> rfl

end Sys2Proof.Machine
end

section
/-! The Frame Codec (40_frame_codec.md): decoding inverts encoding for both algorithms (R110), an encoded
frame holds no terminator (R111), the strict ESC decoder is canonical (R115), and the byte-serial forms of
the codec agree with the functions (R119, R120). -/

namespace Sys2Proof

/-! ### ESC: one equation per kind of byte (R112, R114) -/

theorem escapeByte_of_escaped {p : Params} {x : Byte} (h : p.escaped x = true) :
    escapeByte p x = [p.escByte, x ^^^ p.escXor] := if_pos h

theorem escapeByte_of_not_escaped {p : Params} {x : Byte} (h : p.escaped x = false) :
    escapeByte p x = [x] := by simp [escapeByte, h]

theorem xor_escXor_xor_escXor (p : Params) (x : Byte) : x ^^^ p.escXor ^^^ p.escXor = x := by
  rw [BitVec.xor_assoc, BitVec.xor_self, BitVec.xor_zero]

/-- What the decoder does with the second byte of an escape pair: `d` is the byte it stands for. -/
theorem decodeEscLoop_code {p : Params} {cap : Nat} {d : Byte} {out : List Byte}
    (hlegal : p.illegalCode d = false) (hcap : out.length < cap) (t : List Byte) :
    decodeEscLoop p cap ((d ^^^ p.escXor) :: t) true out = decodeEscLoop p cap t false (out ++ [d]) := by
  have hfit : ¬ cap < (out ++ [d]).length := by simpa using hcap
  simp only [decodeEscLoop, xor_escXor_xor_escXor, hlegal, hfit, if_false, Bool.false_eq_true]

/-- The decoder reads the bytes of one payload byte as that byte. -/
theorem decodeEscLoop_escapeByte (p : Params) {cap : Nat} {out : List Byte} (hcap : out.length < cap)
    (x : Byte) (t : List Byte) :
    decodeEscLoop p cap (escapeByte p x ++ t) false out = decodeEscLoop p cap t false (out ++ [x]) := by
  cases hx : p.escaped x with
  | true =>
    have hlegal : p.illegalCode x = false := by simp [Params.illegalCode, hx]
    have hfit : ¬ cap < out.length := by omega
    rw [escapeByte_of_escaped hx, ← decodeEscLoop_code hlegal hcap]
    simp only [List.cons_append, List.nil_append, decodeEscLoop, hfit, if_true, if_false]
  | false =>
    have hne : x ≠ p.escByte := fun e => by simp [Params.escaped, e] at hx
    have hfit : ¬ cap < (out ++ [x]).length := by simpa using hcap
    rw [escapeByte_of_not_escaped hx]
    simp only [List.cons_append, List.nil_append, decodeEscLoop, hne, hfit, if_false]

theorem decodeEscLoop_stuffedEsc (p : Params) {cap : Nat} (x : List Byte) {out : List Byte}
    (hcap : out.length + x.length ≤ cap) :
    decodeEscLoop p cap (stuffedEsc p x) false out = some (out ++ x) := by
  induction x generalizing out with
  | nil => simp [stuffedEsc, decodeEscLoop]
  | cons a t ih =>
    rw [List.length_cons] at hcap
    rw [stuffedEsc, decodeEscLoop_escapeByte p (by omega), ih (by simp; omega), List.append_assoc]
    rfl

/-- WF3: neither byte of an escape pair is the terminator. -/
theorem zero_notMem_escapeByte {p : Params} (h : p.wf = true) (x : Byte) : 0#8 ∉ escapeByte p x := by
  obtain ⟨hbyte, hxor, hne⟩ := Params.wf_escape h
  cases hx : p.escaped x with
  | true =>
    have hcode : x ^^^ p.escXor ≠ 0#8 := fun e => by
      have hx' : x = p.escXor := BitVec.xor_eq_zero_iff.mp e
      rcases (p.escaped_iff x).mp hx with h0 | h1
      · exact hxor (hx' ▸ h0)
      · exact hne (hx' ▸ h1)
    rw [escapeByte_of_escaped hx]
    simp [hbyte.symm, hcode.symm]
  | false =>
    have hzero : x ≠ 0#8 := fun e => by simp [Params.escaped, e] at hx
    rw [escapeByte_of_not_escaped hx]
    simp [hzero.symm]

theorem zero_notMem_stuffedEsc {p : Params} (h : p.wf = true) (x : List Byte) :
    0#8 ∉ stuffedEsc p x := by
  induction x with
  | nil => exact List.not_mem_nil
  | cons a t ih =>
    rw [stuffedEsc, List.mem_append]
    exact not_or.mpr ⟨zero_notMem_escapeByte h a, ih⟩

/-- R114: the loop checks the capacity before it keeps a byte. -/
theorem decodeEscLoop_length_le {p : Params} {cap : Nat} {f : List Byte} {esc : Bool}
    {out x : List Byte} (hout : out.length ≤ cap) (h : decodeEscLoop p cap f esc out = some x) :
    x.length ≤ cap := by
  fun_induction decodeEscLoop p cap f esc out with
  | case2 esc out => exact Option.some.inj h ▸ hout
  | case5 c t out _ hfit ih => exact ih (not_lt.mp hfit) h
  | case7 t out _ ih => exact ih hout h
  | case9 c t out _ hfit ih => exact ih (not_lt.mp hfit) h
  | _ => cases h

/-- R115 (b): the bytes that the strict decoder has read are the stuffing of what it has added to `out`;
`esc` is a pending escape byte. -/
theorem stuffedEsc_of_decodeEscLoop {p : Params} {cap : Nat} (hstrict : p.decodeStrict = true)
    {f : List Byte} {esc : Bool} {out x : List Byte} (hzero : 0#8 ∉ f)
    (h : decodeEscLoop p cap f esc out = some x) :
    ∃ y, x = out ++ y ∧ stuffedEsc p y = if esc then p.escByte :: f else f := by
  fun_induction decodeEscLoop p cap f esc out with
  | case2 esc out hesc => exact ⟨[], by simpa using h.symm, by simp [stuffedEsc, hesc]⟩
  | case5 c t out hlegal _ ih =>
    obtain ⟨y, rfl, hy⟩ := ih (fun hm => hzero (List.mem_cons_of_mem _ hm)) h
    have hesc : p.escaped (c ^^^ p.escXor) = true := by
      simpa [Params.illegalCode, hstrict] using hlegal
    refine ⟨(c ^^^ p.escXor) :: y, by simp, ?_⟩
    rw [stuffedEsc, escapeByte_of_escaped hesc, xor_escXor_xor_escXor, hy]
    rfl
  | case7 t out _ ih => exact ih (fun hm => hzero (List.mem_cons_of_mem _ hm)) h
  | case9 c t out hne _ ih =>
    obtain ⟨y, rfl, hy⟩ := ih (fun hm => hzero (List.mem_cons_of_mem _ hm)) h
    have hc : c ≠ 0#8 := fun e => hzero (e ▸ List.mem_cons_self)
    refine ⟨c :: y, by simp, ?_⟩
    rw [stuffedEsc, escapeByte_of_not_escaped (by simp [Params.escaped, hc, hne]), hy]
    rfl
  | _ => cases h

/-! ### COBS: block by block (R124, R125) -/

theorem toNat_cobsCode {block : List Byte} (h : block.length < 255) :
    (BitVec.ofNat 8 (block.length + 1)).toNat = block.length + 1 := by
  rw [BitVec.toNat_ofNat]
  omega

/-- One turn of the decoder reads one block. -/
theorem decodeCobsLoop_block {cap k : Nat} {code : Byte} {block rest out out' : List Byte}
    (hcode : code.toNat = block.length + 1)
    (hout : out' = out ++ block ++ if code ≠ 0xFF#8 ∧ rest ≠ [] then [0#8] else [])
    (hcap : out'.length ≤ cap) :
    decodeCobsLoop cap (k + 1) (code :: (block ++ rest)) out = decodeCobsLoop cap k rest out' := by
  subst hout
  have hlen : ¬ (block ++ rest).length < block.length := by simp
  have hout : (if code ≠ 0xFF#8 ∧ rest ≠ [] then out ++ block ++ [0#8] else out ++ block) =
      out ++ block ++ if code ≠ 0xFF#8 ∧ rest ≠ [] then [0#8] else [] := by
    split <;> simp
  simp only [decodeCobsLoop, hcode, Nat.add_sub_cancel, if_neg hlen, List.drop_left, List.take_left,
    hout, if_neg (not_lt.mpr hcap)]

/-- A loop that has not just closed a full block closes one more. -/
theorem stuffedCobsLoop_ne_nil (x block : List Byte) : stuffedCobsLoop x block false ≠ [] := by
  induction x generalizing block with
  | nil => simp [stuffedCobsLoop, cobsBlock]
  | cons c t ih =>
    simp only [stuffedCobsLoop]
    split
    · simp [cobsBlock]
    · split
      · simp
      · exact ih _

/-- L3 of R110 for COBS: `block` holds the bytes since the last code byte. -/
theorem decodeCobsLoop_stuffedCobsLoop {cap : Nat} (x : List Byte) {block : List Byte} {justFf : Bool}
    {fuel : Nat} {out : List Byte} (hblock : block.length < 254) (hff : justFf = true → block = [])
    (hfuel : (stuffedCobsLoop x block justFf).length ≤ fuel)
    (hcap : out.length + block.length + x.length ≤ cap) :
    decodeCobsLoop cap fuel (stuffedCobsLoop x block justFf) out = some (out ++ block ++ x) := by
  induction x generalizing block justFf fuel out with
  | nil =>
    cases justFf with
    | true => simp [stuffedCobsLoop, decodeCobsLoop, hff rfl]
    | false =>
      obtain ⟨k, rfl⟩ := Nat.exists_eq_succ_of_ne_zero (n := fuel) (by
        rintro rfl
        simp [stuffedCobsLoop, cobsBlock] at hfuel)
      have hstep := decodeCobsLoop_block (k := k) (rest := []) (out := out) (cap := cap)
        (toNat_cobsCode (block := block) (by omega)) rfl (by simpa using hcap)
      simpa [stuffedCobsLoop, cobsBlock, decodeCobsLoop] using hstep
  | cons c t ih =>
    simp only [stuffedCobsLoop] at hfuel ⊢
    rw [List.length_cons] at hcap
    split at hfuel
    · next hc =>
      subst hc
      rw [if_pos rfl]
      simp only [cobsBlock, List.cons_append, List.length_cons, List.length_append] at hfuel ⊢
      obtain ⟨k, rfl⟩ := Nat.exists_eq_succ_of_ne_zero (n := fuel) (by omega)
      have hcode : BitVec.ofNat 8 (block.length + 1) ≠ 0xFF#8 := fun e => by
        have := congrArg BitVec.toNat e
        rw [toNat_cobsCode (by omega)] at this
        simp at this
        omega
      rw [decodeCobsLoop_block (out' := out ++ block ++ [0#8]) (toNat_cobsCode (by omega))
        (by rw [if_pos ⟨hcode, stuffedCobsLoop_ne_nil t []⟩]) (by simp; omega)]
      rw [ih (by simp) (by simp) (by omega) (by simp; omega)]
      simp
    · next hc =>
      rw [if_neg hc]
      split at hfuel
      · next hfull =>
        rw [if_pos hfull]
        simp only [List.cons_append, List.length_cons, List.length_append] at hfuel
        obtain ⟨k, rfl⟩ := Nat.exists_eq_succ_of_ne_zero (n := fuel) (by omega)
        rw [List.cons_append, decodeCobsLoop_block (out' := out ++ (block ++ [c]))
          (by rw [hfull]; rfl) (by simp) (by simp; omega)]
        rw [ih (by simp) (by simp) (by omega) (by simp; omega)]
        simp
      · next hnfull =>
        rw [if_neg hnfull]
        have hlen : (block ++ [c]).length = block.length + 1 := by simp
        rw [ih (by omega) (by simp) hfuel (by omega)]
        simp

theorem zero_notMem_cobsBlock {block : List Byte} (hblock : block.length < 254) (h : 0#8 ∉ block) :
    0#8 ∉ cobsBlock block := by
  have hcode : 0#8 ≠ BitVec.ofNat 8 (block.length + 1) := fun e => by
    have := congrArg BitVec.toNat e
    rw [toNat_cobsCode (by omega)] at this
    simp at this
  simp [cobsBlock, hcode, h]

/-- L2 of R110 for COBS: a code byte is never 0, and a block never holds one. -/
theorem zero_notMem_stuffedCobsLoop (x : List Byte) {block : List Byte} {justFf : Bool}
    (hblock : block.length < 254) (h : 0#8 ∉ block) : 0#8 ∉ stuffedCobsLoop x block justFf := by
  induction x generalizing block justFf with
  | nil =>
    cases justFf with
    | true => exact List.not_mem_nil
    | false => exact zero_notMem_cobsBlock hblock h
  | cons c t ih =>
    have hnil : ∀ j, 0#8 ∉ stuffedCobsLoop t [] j := fun j => ih (by simp) List.not_mem_nil
    simp only [stuffedCobsLoop]
    split
    · simp [zero_notMem_cobsBlock hblock h, hnil]
    · next hc =>
      have hc' : 0#8 ≠ c := fun e => hc e.symm
      split
      · simp [h, hc', hnil]
      · next hnfull =>
        rw [List.length_append, List.length_singleton] at hnfull
        exact ih (by simp; omega) (by simp [h, hc'])

/-- R125: the loop checks the capacity before it keeps a block. -/
theorem decodeCobsLoop_length_le {cap k : Nat} {f out x : List Byte} (hout : out.length ≤ cap)
    (h : decodeCobsLoop cap k f out = some x) : x.length ≤ cap := by
  induction k generalizing f out with
  | zero => cases f <;> exact Option.some.inj h ▸ hout
  | succ k ih =>
    cases f with
    | nil => exact Option.some.inj h ▸ hout
    | cons code t =>
      unfold decodeCobsLoop at h
      split at h
      · cases h
      · dsimp only at h
        generalize (if code ≠ 0xFF#8 ∧ t.drop (code.toNat - 1) ≠ [] then _ else _ : List Byte) = out' at h
        split at h
        · cases h
        · next hfit => exact ih (not_lt.mp hfit) h

/-! ### The algorithm in force (R110, R123) -/

/-- R110 L4: what decodes fits the capacity. -/
theorem decodeFrame_length_le {p : Params} {f x : List Byte} {cap : Nat}
    (h : decodeFrame p f cap = some x) : x.length ≤ cap := by
  unfold decodeFrame at h
  split at h
  · exact decodeEscLoop_length_le (Nat.zero_le _) h
  · unfold decodeCobs at h
    split at h
    · cases h
    · exact decodeCobsLoop_length_le (Nat.zero_le _) h

theorem decodeAny_of_zero_notMem {p : Params} {f : List Byte} (h : 0#8 ∉ f) (cap : Nat) :
    Machine.decodeAny p f cap = decodeFrame p f cap := if_neg h

/-- R114, R125: whatever `DECODE` answers fits the capacity. -/
theorem decodeAny_length_le {p : Params} {f x : List Byte} {cap : Nat}
    (h : Machine.decodeAny p f cap = some x) : x.length ≤ cap := by
  unfold Machine.decodeAny at h
  split at h
  · simpa using (Option.filter_eq_some_iff.mp h).2
  · exact decodeFrame_length_le h

end Sys2Proof

namespace Sys2Proof.Machine

/-- Settles O1: law L1 is the definition; an escape pair holds no zero byte by WF3, and a COBS code byte is
the length of its block plus one. -/
theorem encodedFrameIsZeroFree : Obligations.EncodedFrameIsZeroFree := by
  intro p x hp
  refine ⟨rfl, ?_⟩
  unfold stuffed
  split
  · exact zero_notMem_stuffedEsc hp x
  · exact zero_notMem_stuffedCobsLoop x (by simp) List.not_mem_nil

/-- Settles O2: both decoders rebuild the payload piece by piece, ESC by bytes and COBS by blocks, so what
they have kept is always the beginning of the payload and within the capacity. -/
theorem decodeInvertsEncode : Obligations.DecodeInvertsEncode := by
  intro p x cap _ hcap
  cases halg : p.codecAlg with
  | esc =>
    simp only [decodeFrame, stuffed, halg]
    exact decodeEscLoop_stuffedEsc p x (by simpa using hcap)
  | cobs =>
    simp only [decodeFrame, stuffed, halg, decodeCobs, stuffedCobs, if_neg (stuffedCobsLoop_ne_nil x [])]
    exact decodeCobsLoop_stuffedCobsLoop x (by simp) (fun _ => rfl) le_rfl (by simpa using hcap)

/-- Settles O3: a strict decoder accepts an escape code only for a byte that has to be escaped. -/
theorem strictEscDecodeIsCanonical : Obligations.StrictEscDecodeIsCanonical := by
  intro p f x cap hstrict hzero h
  obtain ⟨y, rfl, hy⟩ := stuffedEsc_of_decodeEscLoop hstrict hzero h
  exact ⟨hy, decodeEscLoop_length_le (Nat.zero_le _) h⟩

/-! ### The transmit serialiser (R120) -/

/-- From any index of WBUF the serialiser sends what `ENCODE` makes of the bytes from there. -/
theorem serialiseEsc_eq (p : Params) (m : Memory) (i n : Nat) :
    serialiseEsc p m i n = stuffedEsc p (m.readBytes i n) ++ [0#8] := by
  induction n generalizing i with
  | zero => rfl
  | succ n ih =>
    rw [serialiseEsc, Memory.readBytes, stuffedEsc, ih]
    by_cases h : m.read i = 0#8 ∨ m.read i = p.escByte
    · rw [if_pos h, escapeByte_of_escaped ((p.escaped_iff _).mpr h)]
      rfl
    · rw [if_neg h, escapeByte_of_not_escaped (by simpa [Params.escaped] using h)]
      rfl

/-- Settles O5: the pending second byte of a pair is sent before the next byte of WBUF is read. -/
theorem serialiserProducesEncode : Obligations.SerialiserProducesEncode := by
  intro p m n hesc
  rw [serialiseEsc_eq, encodeFrame, stuffed, hesc]

/-! ### The streaming framer (R119) -/

/-- What the loop of `DECODE` makes of further bytes, started in the registers `esc` and `fill`; `bad` is
a decoder that has failed. -/
def Framer.decodesTo (fr : Framer) (p : Params) (f : List Byte) : Option (List Byte) :=
  if fr.bad then none else decodeEscLoop p p.capRx f fr.esc fr.fill

theorem Framer.push_fill_length_le {fr : Framer} {cap : Nat} (h : fr.fill.length ≤ cap) (d : Byte) :
    (fr.push cap d).fill.length ≤ cap := by
  unfold Framer.push
  split
  · exact h
  · next hn =>
    have hlt : fr.fill.length < cap := lt_of_le_of_ne h hn
    simpa using hlt

theorem Framer.stream_fill_length_le {fr : Framer} {p : Params} (h : fr.fill.length ≤ p.capRx) (b : Byte) :
    (fr.stream p b).fill.length ≤ p.capRx := by
  unfold Framer.stream
  split
  · exact Nat.zero_le _
  split
  · exact h
  split
  · split
    · exact h
    · exact Framer.push_fill_length_le (fr := { fr with esc := false }) h _
  split
  · exact h
  · exact Framer.push_fill_length_le h b

/-- `push` fails exactly where the loop finds the capacity exceeded. -/
theorem Framer.decodesTo_push {fr : Framer} {p : Params} (hfill : fr.fill.length ≤ p.capRx)
    (hbad : fr.bad = false) (d : Byte) (t : List Byte) :
    (fr.push p.capRx d).decodesTo p t =
      if p.capRx < (fr.fill ++ [d]).length then none
      else decodeEscLoop p p.capRx t fr.esc (fr.fill ++ [d]) := by
  by_cases hfull : fr.fill.length = p.capRx
  · simp [Framer.push, Framer.n, Framer.decodesTo, hfull]
  · have hfit : ¬ p.capRx < (fr.fill ++ [d]).length := by simp; omega
    rw [if_neg hfit]
    simp [Framer.push, Framer.n, Framer.decodesTo, hfull, hbad]

/-- R119: a byte other than the terminator moves the registers as it moves the loop. -/
theorem Framer.decodesTo_stream {fr : Framer} {p : Params} (hfill : fr.fill.length ≤ p.capRx) {b : Byte}
    (hb : b ≠ 0#8) (t : List Byte) : (fr.stream p b).decodesTo p t = fr.decodesTo p (b :: t) := by
  obtain ⟨acc, fill, esc, bad, queue⟩ := fr
  cases bad with
  | true => simp [Framer.stream, Framer.decodesTo, hb]
  | false =>
    have hpush := fun d => Framer.decodesTo_push (fr := ⟨acc, fill, false, false, queue⟩) hfill rfl d t
    cases esc with
    | true =>
      by_cases hill : p.illegalCode (b ^^^ p.escXor) = true
      · simp [Framer.stream, Framer.decodesTo, hb, hill, decodeEscLoop]
      · have hstep : Framer.stream ⟨acc, fill, true, false, queue⟩ p b =
            Framer.push ⟨acc, fill, false, false, queue⟩ p.capRx (b ^^^ p.escXor) := by
          simp [Framer.stream, hb, hill]
        rw [hstep, hpush]
        simp only [Framer.decodesTo, decodeEscLoop, hill, if_false, Bool.false_eq_true]
    | false =>
      by_cases he : b = p.escByte
      · have hstep : Framer.stream ⟨acc, fill, false, false, queue⟩ p b =
            ⟨acc, fill, true, false, queue⟩ := by
          simp [Framer.stream, hb, ← he]
        rw [hstep, he]
        simp only [Framer.decodesTo, decodeEscLoop, if_false, if_true, Bool.false_eq_true,
          if_neg (not_lt.mpr hfill)]
      · have hstep : Framer.stream ⟨acc, fill, false, false, queue⟩ p b =
            Framer.push ⟨acc, fill, false, false, queue⟩ p.capRx b := by
          simp [Framer.stream, hb, he]
        rw [hstep, hpush]
        simp only [Framer.decodesTo, decodeEscLoop, he, if_false, Bool.false_eq_true]

/-- R119: the registers after more bytes stand for what the loop makes of those bytes. -/
theorem streamPayload_foldl_stream (p : Params) {f : List Byte} (hzero : 0#8 ∉ f) (fr : Framer)
    (hfill : fr.fill.length ≤ p.capRx) :
    (f.foldl (fun g b => g.stream p b) fr).streamPayload = fr.decodesTo p f := by
  induction f generalizing fr with
  | nil => cases hb : fr.bad <;> simp [Framer.streamPayload, Framer.decodesTo, decodeEscLoop, hb]
  | cons b t ih =>
    obtain ⟨hb, ht⟩ : 0#8 ≠ b ∧ 0#8 ∉ t := by simpa using hzero
    rw [List.foldl_cons, ih ht _ (Framer.stream_fill_length_le hfill b),
      Framer.decodesTo_stream hfill hb.symm]

/-- Settles O6: the registers after reset are the decoder's start. -/
theorem streamingFramerAgreesWithDecode : Obligations.StreamingFramerAgreesWithDecode := fun p _ hzero =>
  streamPayload_foldl_stream p hzero Framer.reset (Nat.zero_le _)

/-! ### The rows `ENCODE` and `DECODE` (R112, R114, R124, R125) -/

theorem exec_encode (x : List Byte) (s : State) :
    exec (.encode x) s = .next (s.setResult (.bytes (encodeFrame s.params x))) := rfl

theorem exec_decode (f : List Byte) (cap : Nat) (s : State) :
    exec (.decode f cap) s = .next (s.setResult (bytesResult (decodeAny s.params f cap))) := rfl

/-- Settles O8: both rows only leave a result, and `DECODE` of a sequence that holds a terminator keeps
within the capacity. -/
theorem encodeAndDecodeRows : Obligations.EncodeAndDecodeRows := by
  intro s
  refine ⟨fun x => exec_encode x s, fun f cap x hzero hsome => ?decoded, fun f cap hzero hnone => ?failed,
    fun f cap _ => ⟨_, exec_decode f cap s, ?unstated⟩⟩
  case decoded =>
    rw [exec_decode, decodeAny_of_zero_notMem hzero, hsome]
    rfl
  case failed =>
    rw [exec_decode, decodeAny_of_zero_notMem hzero, hnone]
    rfl
  case unstated =>
    cases h : decodeAny s.params f cap with
    | none => exact .inl rfl
    | some x => exact .inr ⟨x, rfl, decodeAny_length_le h⟩

end Sys2Proof.Machine
end

section
/-! Decoding inverts the encoder of instructions (R99, and the model's own operand bytes), words of the
table, and what a step does with offered bytes (R10). -/

namespace Sys2Proof

/-! ### Operand bytes: reading what was put (R7) -/

theorem getLe_leN_append {n v : Nat} (h : v < 256 ^ n) (r : List Byte) :
    getLe n (leN n v ++ r) = some (v, r) := by
  have hle : n ≤ (leN n v ++ r).length := by simp
  rw [getLe, if_pos hle, List.take_left' (leN_length n v), List.drop_left' (leN_length n v), fromLe_leN,
    Nat.mod_eq_of_lt h]

theorem getLe_le4_append (v : Word) (r : List Byte) : getLe 4 (le4 v ++ r) = some (v.toNat, r) :=
  getLe_leN_append v.isLt r

theorem getLe_le2_append (v : Half) (r : List Byte) : getLe 2 (le2 v ++ r) = some (v.toNat, r) :=
  getLe_leN_append v.isLt r

theorem getLe_le4 (v : Word) : getLe 4 (le4 v) = some (v.toNat, []) := by
  simpa using getLe_le4_append v []

theorem getLe_le2 (v : Half) : getLe 2 (le2 v) = some (v.toNat, []) := by
  simpa using getLe_le2_append v []

theorem getLe_byte (b : Byte) : getLe 1 [b] = some (b.toNat, []) := rfl

theorem lt_of_fits32 {n : Nat} (h : fits32 n = true) : n < 256 ^ 4 := of_decide_eq_true h

theorem getBytes_putBytes_append {bs : List Byte} (h : fits32 bs.length = true) (r : List Byte) :
    getBytes (putBytes bs ++ r) = some (bs, r) := by
  simp only [getBytes, putBytes, List.append_assoc, getLe_leN_append (lt_of_fits32 h),
    List.length_append, Nat.le_add_right, if_true, List.take_left, List.drop_left]

theorem getBytes_putBytes {bs : List Byte} (h : fits32 bs.length = true) :
    getBytes (putBytes bs) = some (bs, []) := by
  simpa using getBytes_putBytes_append h []

theorem getType_putType_append {t : FieldType} (h : t.wf = true) (r : List Byte) :
    getType (putType t ++ r) = some (t, r) := by
  cases t with
  | bytes n =>
    have hnum := getLe_leN_append (lt_of_fits32 h) r
    exact congrArg (Option.map fun x => (FieldType.bytes x.1, x.2)) hnum
  | _ => rfl

theorem getTypes_flatMap_putType {ts : List FieldType} (h : ts.all FieldType.wf = true) :
    getTypes ts.length (ts.flatMap putType) = some (ts, []) := by
  induction ts with
  | nil => rfl
  | cons t ts ih =>
    obtain ⟨ht, hts⟩ : t.wf = true ∧ ts.all FieldType.wf = true := by simpa using h
    simp only [List.length_cons, List.flatMap_cons, getTypes, getType_putType_append ht, ih hts,
      Option.map_some]

theorem usedBit_bitCode (b : Bool) : usedBit [bitCode b] = some b := by cases b <;> rfl

theorem FrameClass.ite_eq_large (c : FrameClass) : (if c = .large then .large else .small) = c := by
  cases c <;> rfl

theorem Dest.ite_eq_log (d : Dest) : (if d = .log then .log else .wire) = d := by
  cases d <;> rfl

/-- A selector with operands that name a row decodes to that row. -/
theorem decode_op_of_opOf {c : Byte} {r : List Byte} {i : Instr} (hc : c.toNat < 20)
    (h : opOf c.toNat r = some i) : decode .op (c :: r) = .ok i := by
  simp [decode, decodeAll, decodeOp, not_le.mpr hc, h, Except.map]

end Sys2Proof

namespace Sys2Proof.Machine

/-- Settles O55: a row without operands is one word, evaluated; a row with operands puts each so that it
is read back whatever follows, and nothing follows the last. -/
theorem decodeInvertsEncoder : Obligations.DecodeInvertsEncoder := by
  intro i hwf
  cases i with
  | version k | pcb k | mixTable k | magBias k | channel k | pidParameters k | stateParameters k
  | ledStates k | deviceName k => cases k <;> rfl
  | encode p =>
    refine decode_op_of_opOf (by decide) ?_
    simp [opOf, getBytes_putBytes hwf, used]
  | decode f cap =>
    obtain ⟨hf, hcap⟩ : fits32 f.length = true ∧ fits32 cap = true := by simpa [Instr.wf] using hwf
    refine decode_op_of_opOf (by decide) ?_
    have hnum : getLe 4 (leN 4 cap) = some (cap, []) := by
      simpa using getLe_leN_append (lt_of_fits32 hcap) []
    simp [opOf, getBytes_putBytes_append hf, hnum, used]
  | rxByte b =>
    refine decode_op_of_opOf (by decide) ?_
    simp [opOf, getLe_byte, used]
  | emit ts m l =>
    refine decode_op_of_opOf (by decide) ?_
    simp [opOf, getLe_le4_append, usedBit_bitCode]
  | parseInto ts =>
    obtain ⟨hlen, hall⟩ : fits32 ts.length = true ∧ ts.all FieldType.wf = true := by
      simpa only [Instr.wf, Bool.and_eq_true] using hwf
    refine decode_op_of_opOf (by decide) ?_
    simp [opOf, getLe_leN_append (lt_of_fits32 hlen), getTypes_flatMap_putType hall, used]
  | append bs =>
    refine decode_op_of_opOf (by decide) ?_
    simp [opOf, getBytes_putBytes hwf, used]
  | beginFrame c t m =>
    refine decode_op_of_opOf (by decide) ?_
    simp [opOf, getLe_le4_append, usedBit_bitCode, FrameClass.ite_eq_large]
  | send d =>
    refine decode_op_of_opOf (by decide) ?_
    simp [opOf, usedBit_bitCode, Dest.ite_eq_log]
  | fromString bs =>
    refine decode_op_of_opOf (by decide) ?_
    simp [opOf, getBytes_putBytes hwf, used]
  | writePartial a b =>
    refine decode_op_of_opOf (by decide) ?_
    simp [opOf, getLe_le2_append, getLe_le2, used]
  | parsePartial a =>
    refine decode_op_of_opOf (by decide) ?_
    simp [opOf, getLe_le2, used]
  | resetPartial a =>
    refine decode_op_of_opOf (by decide) ?_
    simp [opOf, getLe_le2, used]
  | stateLen m =>
    refine decode_op_of_opOf (by decide) ?_
    simp [opOf, getLe_le4, used]
  | _ => rfl

/-- Settles O56: each word is evaluated. -/
theorem tableWordsDecode : Obligations.TableWordsDecode :=
  ⟨rfl, rfl, rfl, rfl, rfl, rfl, rfl, rfl, rfl⟩

/-- A step on offered bytes is what the instruction they name does (R10). -/
theorem step_instr {s : State} {f : Format} {bs : List Byte} {i : Instr} {more : List Instr}
    {rest : List Stimulus} (hp : s.params.wf = true) (hst : s.stimuli = .instr f bs :: rest)
    (h : decodeAll f bs = .ok (i :: more)) : step s = exec i (s.advance (more.map offer ++ rest)) := by
  simp only [step, hst, hp, if_true, fetchInstr, h]

/-- Settles O57. -/
theorem stepRunsTheDecodedInstruction : Obligations.StepRunsTheDecodedInstruction := by
  intro s f bs i more rest hp hst h
  refine ⟨?_, step_instr hp hst h⟩
  simp only [decode, h]

end Sys2Proof.Machine
end

section
/-! The Field Reader and the Field Writer once more (41_field_rw.md): a tuple read back from its encoding
(R90, R142), `BeginFrame` and `Send` (R147, R148); and the Name Validator's `verify` (R161, R162). -/

namespace Sys2Proof.Machine

/-! ### Typed values (R90, R142) -/

theorem encodeField_length (v : FieldVal) : (encodeField v).length = fieldSize (fieldTypeOf v) := by
  cases v <;> simp [encodeField, fieldSize, fieldTypeOf]

theorem decodeField_encodeField (v : FieldVal) : decodeField (fieldTypeOf v) (encodeField v) = v := by
  cases v with
  | u8 b | i8 b => simp only [fieldTypeOf, encodeField, decodeField, byte_singleton]
  | u16 h | i16 h => simp only [fieldTypeOf, encodeField, decodeField, half_le2]
  | u32 w | i32 w | f32 w | tag w => simp only [fieldTypeOf, encodeField, decodeField, word_le4]
  | f32x3 x y z =>
    have hx : (le4 x ++ le4 y ++ le4 z).take 4 = le4 x := by
      rw [List.append_assoc, List.take_left' (le4_length x)]
    have hy : ((le4 x ++ le4 y ++ le4 z).drop 4).take 4 = le4 y := by
      rw [List.append_assoc, List.drop_left' (le4_length x), List.take_left' (le4_length y)]
    have hz : ((le4 x ++ le4 y ++ le4 z).drop 8).take 4 = le4 z := by
      rw [List.drop_left' (by simp), List.take_of_length_le (by simp)]
    simp only [fieldTypeOf, encodeField, decodeField, hx, hy, hz, word_le4]
  | bytes bs => rfl

theorem tupleSize_cons (t : FieldType) (ts : List FieldType) :
    tupleSize (t :: ts) = fieldSize t + tupleSize ts := by simp [tupleSize]

/-- Settles O11: each value takes exactly the bytes of its own encoding, so the next begins where it
ends. -/
theorem decodedTupleIsWhatWasEncoded : Obligations.DecodedTupleIsWhatWasEncoded := by
  intro vs rest
  induction vs with
  | nil => exact ⟨rfl, rfl⟩
  | cons v vs ih =>
    obtain ⟨hvals, hsize⟩ := ih
    refine ⟨?_, ?_⟩
    · rw [List.map_cons, List.flatMap_cons, List.append_assoc,
        decodeTuple_append (encodeField_length v), decodeField_encodeField, hvals]
    · rw [List.map_cons, tupleSize_cons, List.flatMap_cons, List.length_append, hsize,
        encodeField_length]

/-! ### `BeginFrame` and `Send` (R147, R148) -/

theorem exec_beginFrame (c : FrameClass) (type mask : Word) (s : State) :
    exec (.beginFrame c type mask) s = outcome (beginFrame c type mask s) := rfl

theorem exec_send (d : Dest) (s : State) : exec (.send d) s = outcome (sendFrame .send d s) := rfl

/-- Settles O13: the overflow flag alone decides between handing over and abandoning. -/
theorem frameRows : Obligations.FrameRows := by
  intro s
  refine ⟨fun c type mask hcap hbuf => ?begun, fun hovf hlen => ⟨?wire, ?log⟩,
    fun hovf d => ?abandoned, fun _ => rfl, fun _ => rfl⟩
  case begun => rw [exec_beginFrame, beginFrame_eq hcap hbuf, outcome_ok]
  case wire => rw [exec_send, sendFrame_eq hovf hlen, outcome_ok, deliver]
  case log => rw [exec_send, sendFrame_eq hovf hlen, outcome_ok, deliver]
  case abandoned => rw [exec_send, sendFrame_overflow hovf, outcome_ok]

end Sys2Proof.Machine

namespace Sys2Proof

/-! ### `verify` (R162) -/

/-- The name ends at place `n`: a terminator there, and legal characters before it (R162). -/
def nameEndsAt (name : List Byte) (n : Nat) : Prop :=
  n < name.length ∧ name.getD n 0#8 = 0#8 ∧
    ∀ j < n, name.getD j 0#8 ≠ 0#8 ∧ legalChar (name.getD j 0#8) = true

theorem nameEndsAt_zero (t : List Byte) : nameEndsAt (0#8 :: t) 0 :=
  ⟨Nat.succ_pos _, rfl, fun _ hj => absurd hj (Nat.not_lt_zero _)⟩

theorem nameEndsAt_succ {c : Byte} {t : List Byte} {n : Nat} :
    nameEndsAt (c :: t) (n + 1) ↔ (c ≠ 0#8 ∧ legalChar c = true) ∧ nameEndsAt t n := by
  constructor
  · rintro ⟨hn, hterm, hlegal⟩
    exact ⟨hlegal 0 (Nat.succ_pos n), Nat.lt_of_succ_lt_succ hn, hterm,
      fun j hj => hlegal (j + 1) (Nat.succ_lt_succ hj)⟩
  · rintro ⟨hc, hn, hterm, hlegal⟩
    refine ⟨Nat.succ_lt_succ hn, hterm, fun j hj => ?_⟩
    cases j with
    | zero => exact hc
    | succ j => exact hlegal j (Nat.lt_of_succ_lt_succ hj)

theorem verifyName_iff (name : List Byte) : verifyName name = true ↔ ∃ n, nameEndsAt name n := by
  induction name with
  | nil => exact ⟨fun h => (Bool.false_ne_true h).elim, fun ⟨n, hn, _⟩ => absurd hn (Nat.not_lt_zero n)⟩
  | cons c t ih =>
    by_cases hc : c = 0#8
    · subst hc
      exact ⟨fun _ => ⟨0, nameEndsAt_zero t⟩, fun _ => rfl⟩
    · have hstep : verifyName (c :: t) = true ↔ legalChar c = true ∧ ∃ n, nameEndsAt t n := by
        rw [← ih]
        simp [verifyName, hc]
      rw [hstep]
      constructor
      · rintro ⟨hl, n, hn⟩
        exact ⟨n + 1, nameEndsAt_succ.mpr ⟨⟨hc, hl⟩, hn⟩⟩
      · rintro ⟨_ | n, hn⟩
        · exact absurd hn.2.1 hc
        · obtain ⟨⟨-, hl⟩, ht⟩ := nameEndsAt_succ.mp hn
          exact ⟨hl, n, ht⟩

/-! ### The legal characters (R161) -/

/-- The codes of the legal characters: the digits, the capital and the small letters, space, underscore
and hyphen (R161). -/
def legalCodes : List Nat :=
  List.range' 0x30 10 ++ List.range' 0x41 26 ++ List.range' 0x61 26 ++ [0x20, 0x5F, 0x2D]

theorem legalChar_iff (c : Byte) : legalChar c = true ↔ c.toNat ∈ legalCodes := by
  simp [legalChar, legalCodes, List.mem_range'_1]
  omega

theorem mem_map_ofNat_legalCodes (c : Byte) :
    c ∈ legalCodes.map (BitVec.ofNat 8) ↔ c.toNat ∈ legalCodes := by
  have hsmall : ∀ n ∈ legalCodes, n < 256 := by decide
  rw [List.mem_map]
  constructor
  · rintro ⟨n, hn, rfl⟩
    rwa [BitVec.toNat_ofNat, Nat.mod_eq_of_lt (hsmall n hn)]
  · exact fun h => ⟨c.toNat, h, by simp⟩

/-- The listed characters, in their listed order. -/
theorem map_legalCharacters :
    ("0123456789ABCDEFGHIJKLMNOPQRSTUVWXYZabcdefghijklmnopqrstuvwxyz _-".toList.map
      fun ch => BitVec.ofNat 8 ch.toNat) = legalCodes.map (BitVec.ofNat 8) := by decide

theorem countP_legalChar : (List.range 256).countP (fun n => legalChar (BitVec.ofNat 8 n)) = 65 := by
  rw [show 256 = 64 + 64 + 128 from rfl, List.range_add, List.range_add, List.countP_append,
    List.countP_append]
  decide

end Sys2Proof

namespace Sys2Proof.Machine

/-- Settles O14: the tests of R161 are four ranges of codes and three single ones, the codes of the listed
characters; `verify` walks to the first terminator. -/
theorem validNames : Obligations.ValidNames := by
  refine ⟨fun c => ?_, countP_legalChar, verifyName_iff⟩
  rw [map_legalCharacters, mem_map_ofNat_legalCodes, legalChar_iff]

end Sys2Proof.Machine
end

section
/-! The rows of the Configuration Record multiplexer that work on whole records or on one sub-field
(43_config_record.md, R162, R172 to R179). -/

namespace Sys2Proof.Machine

/-! ### Validation, whole records and `Commit` (R162, R172, R173, R178, R179) -/

theorem exec_verify (s : State) : exec .verify s = .next (s.setResult
    (.flag (verifyName (s.params.field s.wcfgRecord .deviceName)))) := by
  have h : exec .verify s = outcome ((verifyWorking s).map fun b => s.setResult (.flag b)) := rfl
  rw [h, verifyWorking, workingRecord_eq]
  rfl

theorem exec_configValid (s : State) : exec .configValid s = .next (s.setResult
    (.flag (s.params.configValid s.wcfgRecord))) := by
  have h : exec .configValid s = outcome ((configValid s).map fun b => s.setResult (.flag b)) := rfl
  rw [h, configValid_eq]
  rfl

/-- Settles O16: WCFG has the size of a record, so both rows read the whole of it. -/
theorem validationRows : Obligations.ValidationRows :=
  ⟨fun s => ⟨exec_verify s, exec_configValid s⟩, fun _ => rfl⟩

theorem exec_readFull (s : State) :
    exec .readFull s = outcome ((readFull s).map fun r => r.1.setResult (okResult r.2)) := rfl

theorem tupleSize_bytes (n : Nat) : tupleSize [.bytes n] = n := by simp [tupleSize, fieldSize]

theorem readFull_short {s : State} (h : s.short s.params.cfgTotal) : readFull s = .ok (s, false) := by
  rw [readFull, parseInto_short (by rwa [tupleSize_bytes])]
  rfl

/-- Settles O17: the record is one tuple, taken whole or not at all. -/
theorem fullRecordRows : Obligations.FullRecordRows := by
  intro s
  refine ⟨fun hparse => ⟨?row, fun hwf => ?record⟩, fun hshort => ?short, fun hroom => ?write⟩
  case row =>
    rw [exec_readFull, readFull_eq hparse]
    rfl
  case record =>
    exact wcfgRecord_wroteWcfg (s := s.consumed s.params.cfgTotal) hwf (nextBytes_length ..)
  case short =>
    rw [exec_readFull, readFull_short hshort]
    rfl
  case write => exact congrArg outcome (put_eq hroom)

/-- R86: the layout is as long as `PartialLen` says. -/
theorem partialLayout_length (p : Params) {r : List Byte} (h : r.length = p.cfgTotal)
    (sub ledsub : Half) : (p.partialLayout r sub ledsub).length = p.partialLen sub ledsub := by
  rw [Params.partialLayout, List.length_append, le2_length, List.length_flatMap, Params.partialLen]
  simp only [partialField_length p h]

/-- Settles O18: the room that `PartialLen` asks for is that of the layout. -/
theorem writePartialRow : Obligations.WritePartialRow := by
  intro s sub ledsub hrec hroom
  have hlen := partialLayout_length s.params hrec sub ledsub
  rw [← hlen] at hroom
  exact ⟨congrArg outcome (writePartial_eq hroom), hlen⟩

theorem exec_commit (s : State) :
    exec .commit s = .next
      (if s.env.storeAnswer.isOk then (s.committed s.wcfgRecord).setResult .ok
       else ((s.committed s.wcfgRecord).raise .collab .commit).setResult .fail) := by
  have h : exec .commit s =
      outcome ((commit .commit s).map fun r => r.1.setResult (okResult r.2)) := rfl
  rw [h, commit_eq, commitRecord_eq]
  cases s.env.storeAnswer.isOk <;> rfl

@[simp] theorem committed_params (s : State) (r : List Byte) : (s.committed r).params = s.params := rfl
@[simp] theorem committed_ctl (s : State) (r : List Byte) : (s.committed r).ctl = s.ctl := rfl
@[simp] theorem committed_rx (s : State) (r : List Byte) : (s.committed r).rx = s.rx := rfl
@[simp] theorem committed_rd (s : State) (r : List Byte) : (s.committed r).rd = s.rd := rfl
@[simp] theorem committed_disp (s : State) (r : List Byte) : (s.committed r).disp = s.disp := rfl
@[simp] theorem committed_wr (s : State) (r : List Byte) : (s.committed r).wr = s.wr := rfl
@[simp] theorem committed_tel (s : State) (r : List Byte) : (s.committed r).tel = s.tel := rfl
@[simp] theorem committed_stimuli (s : State) (r : List Byte) :
    (s.committed r).stimuli = s.stimuli := rfl

@[simp] theorem committed_env (s : State) (r : List Byte) : (s.committed r).env = { s.env with
    persist := s.env.storeAnswer.after s.env.persist r, liveCfg := r,
    storeAnswers := s.env.storeAnswers.tail } := rfl

@[simp] theorem committed_out (s : State) (r : List Byte) : (s.committed r).out = { s.out with
    trace := s.out.trace ++ [.applyConfig r, .storageWrite r s.env.storeAnswer.isOk] } := by
  have h : (s.committed r).out = { s.out with
      trace := s.out.trace ++ [.applyConfig r] ++ [.storageWrite r s.env.storeAnswer.isOk] } := rfl
  rw [h, List.append_assoc]
  rfl

/-- Settles O21: the live system takes the record before the store answers, and keeps it. -/
theorem commitRow : Obligations.CommitRow := by
  intro s
  refine ⟨fun hok => ⟨?okRow, ?okStore, rfl, ?okTrace⟩, fun a herr => ⟨?errRow, ?errStore, rfl, ?errTrace⟩⟩
  case okRow => rw [exec_commit, hok]; rfl
  case okStore => rw [committed_env, hok]; rfl
  case okTrace => rw [committed_out, hok]; rfl
  case errRow => rw [exec_commit, herr]; rfl
  case errStore => rw [committed_env, herr]; cases a <;> rfl
  case errTrace => rw [committed_out, herr]; rfl

/-! ### One sub-field in each procedure (R84, R175 to R177) -/

theorem subRow_of_clear {k : SubField} {s : State} (h : s.subSelected k = false) (w : SubWalk) :
    subRow k w s = .ok s := by
  cases w <;> simp [subRow, parseField, resetField, writeField, h]

/-- A selected sub-field other than led-states takes its bytes into WCFG while the parse goes on. -/
theorem parseField_of_ok {k : SubField} {s : State} (hk : k ≠ .ledStates) (h : s.subSelected k = true)
    (hok : s.disp.ok = true) :
    parseField k s = parseToWcfg (s.params.cfgOff k) (s.params.cfgSizeOf k) s := by
  simp [parseField, h, hok, hk]

/-- R176 (b): after a failure only device-name goes on, and only where the parameter says so. -/
theorem parseField_of_failed {k : SubField} {s : State} (hok : s.disp.ok = false)
    (h : k ≠ .deviceName ∨ s.params.nameParseUnconditional = false) : parseField k s = .ok s := by
  rcases h with h | h <;> simp [parseField, hok, h]

theorem parseField_deviceName_of_failed {s : State} (hok : s.disp.ok = false)
    (h : s.subSelected .deviceName = true) (hp : s.params.nameParseUnconditional = true) :
    parseField .deviceName s = parseToWcfg (s.params.cfgOff .deviceName) s.params.nameCap s := by
  simp [parseField, h, hok, hp, Params.cfgSizeOf]

theorem resetField_of_selected {k : SubField} {s : State} (hk : k ≠ .ledStates)
    (h : s.subSelected k = true) :
    resetField k s = .ok (s.wroteWcfg (s.params.cfgOff k) (s.params.field s.params.cfgDefault k)) := by
  have hlen := field_length_le s.params s.params.cfgDefault k
  have hin := cfgOff_add_size_le s.params k
  rw [resetField, if_pos h, if_neg hk, memWrite_wcfg_eq (by omega)]

theorem writeField_of_selected {k : SubField} {s : State} (hk : k ≠ .ledStates)
    (h : s.subSelected k = true) (hroom : s.room (s.params.field s.disp.record k).length) :
    writeField k s = .ok (s.appended (s.params.field s.disp.record k)) := by
  rw [writeField, if_pos h, if_neg hk, put_eq hroom]

/-- Settles O22. -/
theorem subFieldRows : Obligations.SubFieldRows := by
  intro s k hk hsel
  simp only [exec_sub, subRow, outcome_eq_next]
  refine ⟨fun hok hparse => ?parsed, fun hok hshort => ?short, resetField_of_selected hk hsel,
    writeField_of_selected hk hsel⟩
  case parsed => rw [parseField_of_ok hk hsel hok, parseToWcfg_eq hparse (cfgOff_add_size_le _ k)]
  case short => rw [parseField_of_ok hk hsel hok, parseToWcfg_short hshort]

theorem setOk_self {s : State} {b : Bool} (h : s.disp.ok = b) : s.setOk b = s := by
  subst h
  rfl

/-- Settles O23: device-name after a failure is parsed as ever, and a second failure leaves `ok` as it
is. -/
theorem subFieldRowsSkipped : Obligations.SubFieldRowsSkipped := by
  intro s k
  simp only [exec_sub, outcome_eq_next]
  refine ⟨fun hclear w => subRow_of_clear hclear w, fun hok h => parseField_of_failed hok h,
    fun hok hk hsel hp hparse => ?parsed, fun hok hk hsel hp hshort => ?short⟩
  case parsed =>
    subst hk
    rw [subRow, parseField_deviceName_of_failed hok hsel hp,
      parseToWcfg_eq hparse (cfgOff_add_size_le s.params .deviceName)]
  case short =>
    subst hk
    rw [subRow, parseField_deviceName_of_failed hok hsel hp, parseToWcfg_short hshort, setOk_self hok]

end Sys2Proof.Machine
end

section
/-! The walks over a partial record (43_config_record.md, R85, R86, R175 to R177): what each row of a walk
takes from the payload and writes into WCFG, and the record that all its writes make. -/

namespace Sys2Proof.Machine

/-! ### Writes into a byte space, one after the other -/

/-- A space with byte sequences written, each at its own address, in order. -/
def Memory.patch (m : Memory) (ws : List (Nat × List Byte)) : Memory :=
  ws.foldl (fun m w => m.writeBytes w.1 w.2) m

@[simp] theorem Memory.patch_nil (m : Memory) : m.patch [] = m := rfl

@[simp] theorem Memory.patch_cons (m : Memory) (w : Nat × List Byte) (ws : List (Nat × List Byte)) :
    m.patch (w :: ws) = (m.writeBytes w.1 w.2).patch ws := rfl

theorem Memory.patch_append (m : Memory) (ws vs : List (Nat × List Byte)) :
    m.patch (ws ++ vs) = (m.patch ws).patch vs := List.foldl_append

theorem Memory.wf_patch {m : Memory} (h : m.wf = true) (ws : List (Nat × List Byte)) :
    (m.patch ws).wf = true := by
  induction ws generalizing m with
  | nil => exact h
  | cons w ws ih => exact ih (Memory.wf_writeBytes w.2 m w.1 h)

/-- The address `b` lies outside what a write covers. -/
def outside (b : Nat) (w : Nat × List Byte) : Prop := b < w.1 ∨ w.1 + w.2.length ≤ b

theorem Memory.read_writeBytes_outside {m : Memory} (h : m.wf = true) {b : Nat} {w : Nat × List Byte}
    (ho : outside b w) : (m.writeBytes w.1 w.2).read b = m.read b := by
  rw [Memory.read_writeBytes w.2 m h, if_neg (by unfold outside at ho; omega)]

theorem Memory.read_patch_outside {m : Memory} (h : m.wf = true) {b : Nat} {ws : List (Nat × List Byte)}
    (ho : ∀ w ∈ ws, outside b w) : (m.patch ws).read b = m.read b := by
  induction ws generalizing m with
  | nil => rfl
  | cons w ws ih =>
    have hrest : ∀ v ∈ ws, outside b v := fun v hv => ho v (List.mem_cons_of_mem _ hv)
    rw [Memory.patch_cons, ih (Memory.wf_writeBytes w.2 m w.1 h) hrest,
      Memory.read_writeBytes_outside h (ho w List.mem_cons_self)]

/-- A byte after some writes depends on the same byte before them only. -/
theorem Memory.read_patch_congr {m m' : Memory} (h : m.wf = true) (h' : m'.wf = true) {b : Nat}
    (he : m.read b = m'.read b) (ws : List (Nat × List Byte)) :
    (m.patch ws).read b = (m'.patch ws).read b := by
  induction ws generalizing m m' with
  | nil => exact he
  | cons w ws ih =>
    refine ih (Memory.wf_writeBytes _ _ _ h) (Memory.wf_writeBytes _ _ _ h') ?_
    rw [Memory.read_writeBytes w.2 m h, Memory.read_writeBytes w.2 m' h', he]

/-- Where the writes of the other items lie outside an address, only one item's writes count there. -/
theorem Memory.read_patch_flatMap {α : Type} {ws : α → List (Nat × List Byte)} {l : List α} {k : α}
    {b : Nat} {m : Memory} (h : m.wf = true) (hnodup : l.Nodup) (hk : k ∈ l)
    (ho : ∀ j ∈ l, j ≠ k → ∀ w ∈ ws j, outside b w) :
    (m.patch (l.flatMap ws)).read b = (m.patch (ws k)).read b := by
  induction l generalizing m with
  | nil => cases hk
  | cons a t ih =>
    obtain ⟨ha, ht⟩ := List.nodup_cons.mp hnodup
    rw [List.flatMap_cons, Memory.patch_append]
    rcases List.mem_cons.mp hk with rfl | hk
    · refine Memory.read_patch_outside (Memory.wf_patch h _) fun w hw => ?_
      obtain ⟨j, hj, hw⟩ := List.mem_flatMap.mp hw
      exact ho j (List.mem_cons_of_mem _ hj) (fun e => ha (e ▸ hj)) w hw
    · rw [ih (Memory.wf_patch h _) ht hk fun j hj => ho j (List.mem_cons_of_mem _ hj)]
      refine Memory.read_patch_congr (Memory.wf_patch h _) h ?_ _
      exact Memory.read_patch_outside h (ho a List.mem_cons_self fun e => ha (e ▸ hk))

/-! ### The LED entries (R85, R170) -/

/-- The writes of the first `n` LED entries that `ledsub` selects, entry `i` with the bytes `b i`. -/
def ledWrites (p : Params) (ledsub : Half) (b : Nat → List Byte) (n : Nat) : List (Nat × List Byte) :=
  (List.range n).flatMap fun i => if ledsub.getLsbD i then [(p.ledOff i, b i)] else []

/-- LED entries do not overlap. -/
theorem ledOff_disjoint (p : Params) {i j : Nat} (h : i < j) :
    p.ledOff i + p.ledEntrySize ≤ p.ledOff j := by
  have hmul := Nat.mul_le_mul_right p.ledEntrySize h
  rw [Nat.succ_mul] at hmul
  simp only [Params.ledOff]
  omega

/-- The bytes that the first `n` LED entries of a record would be written with fit their places. -/
def fitsLeds (p : Params) (b : Nat → List Byte) (n : Nat) : Prop :=
  ∀ i < n, (b i).length = p.ledEntrySize

theorem mem_ledWrite {p : Params} {ledsub : Half} {b : Nat → List Byte} {i : Nat} {w : Nat × List Byte}
    (h : w ∈ if ledsub.getLsbD i then [(p.ledOff i, b i)] else []) :
    ledsub.getLsbD i = true ∧ w = (p.ledOff i, b i) := by
  split at h
  · next hi => exact ⟨hi, List.mem_singleton.mp h⟩
  · cases h

/-- A byte outside the selected entries is unchanged. -/
theorem read_patch_ledWrites_outside {p : Params} {ledsub : Half} {b : Nat → List Byte} {n a : Nat}
    {m : Memory} (hwf : m.wf = true) (hb : fitsLeds p b n)
    (ho : ∀ i < n, ledsub.getLsbD i = true → a < p.ledOff i ∨ p.ledOff i + p.ledEntrySize ≤ a) :
    (m.patch (ledWrites p ledsub b n)).read a = m.read a := by
  refine Memory.read_patch_outside hwf fun w hw => ?_
  obtain ⟨i, hi, hw⟩ := List.mem_flatMap.mp hw
  obtain ⟨hsel, rfl⟩ := mem_ledWrite hw
  have hn := List.mem_range.mp hi
  have := ho i hn hsel
  rwa [← hb i hn] at this

/-- Each LED entry holds its own write, or what it held. -/
theorem readBytes_patch_ledWrites {p : Params} {ledsub : Half} {b : Nat → List Byte} {n i : Nat}
    {m : Memory} (hwf : m.wf = true) (hb : fitsLeds p b n) (hi : i < n) :
    (m.patch (ledWrites p ledsub b n)).readBytes (p.ledOff i) p.ledEntrySize =
      if ledsub.getLsbD i then b i else m.readBytes (p.ledOff i) p.ledEntrySize := by
  have hown : (m.patch (ledWrites p ledsub b n)).readBytes (p.ledOff i) p.ledEntrySize =
      (m.patch (if ledsub.getLsbD i then [(p.ledOff i, b i)] else [])).readBytes (p.ledOff i)
        p.ledEntrySize := by
    refine Memory.readBytes_congr _ _ _ _ fun a h1 h2 => ?_
    refine Memory.read_patch_flatMap hwf List.nodup_range (List.mem_range.mpr hi) fun j hj hne w hw => ?_
    obtain ⟨-, rfl⟩ := mem_ledWrite hw
    have hlen := hb j (List.mem_range.mp hj)
    rcases Nat.lt_or_gt_of_ne hne with hlt | hgt
    · have := ledOff_disjoint p hlt
      exact .inr (by simp only [hlen]; omega)
    · have := ledOff_disjoint p hgt
      exact .inl (by simp only; omega)
  rw [hown]
  split
  · have := Memory.readBytes_writeBytes m hwf (p.ledOff i) (b i)
    rwa [hb i hi] at this
  · rfl

/-- The led-states of a record are its entries in order. -/
theorem readBytes_leds (p : Params) (m : Memory) :
    m.readBytes (p.cfgOff .ledStates) (p.cfgSizeOf .ledStates) =
      (List.range 16).flatMap fun i => m.readBytes (p.ledOff i) p.ledEntrySize := by
  have h : ∀ n, m.readBytes (p.cfgOff .ledStates) (n * p.ledEntrySize) =
      (List.range n).flatMap fun i => m.readBytes (p.ledOff i) p.ledEntrySize := by
    intro n
    induction n with
    | zero => simp [Memory.readBytes]
    | succ n ih =>
      rw [Nat.succ_mul, Memory.readBytes_add, ih, List.range_succ, List.flatMap_append]
      simp [Params.ledOff]
  exact h 16

/-! ### The writes of a partial record (R170, R175 to R177) -/

/-- The writes of one sub-field that take the selected parts of `rec` into WCFG. -/
def fieldWrites (p : Params) (rec : List Byte) (sub ledsub : Half) (k : SubField) :
    List (Nat × List Byte) :=
  if sub.getLsbD (p.subBitOf k) then
    (if k = .ledStates then ledWrites p ledsub (p.led rec) 16 else [(p.cfgOff k, p.field rec k)])
  else []

/-- The writes of a whole walk. -/
def recordWrites (p : Params) (rec : List Byte) (sub ledsub : Half) : List (Nat × List Byte) :=
  SubField.all.flatMap (fieldWrites p rec sub ledsub)

theorem fitsLeds_led (p : Params) {rec : List Byte} (h : rec.length = p.cfgTotal) :
    fitsLeds p (p.led rec) 16 := fun _ hi => led_length p hi h

/-- The writes of a sub-field stay inside it. -/
theorem fieldWrites_inside {p : Params} {rec : List Byte} {sub ledsub : Half} {k : SubField}
    {w : Nat × List Byte} (h : w ∈ fieldWrites p rec sub ledsub k) :
    p.cfgOff k ≤ w.1 ∧ w.1 + w.2.length ≤ p.cfgOff k + p.cfgSizeOf k := by
  unfold fieldWrites at h
  split at h
  · split at h
    · next hk =>
      subst hk
      obtain ⟨i, hi, hw⟩ := List.mem_flatMap.mp h
      obtain ⟨-, rfl⟩ := mem_ledWrite hw
      have hlen := led_length_le p rec i
      have hmul := Nat.mul_le_mul_right p.ledEntrySize (Nat.succ_le_of_lt (List.mem_range.mp hi))
      rw [Nat.succ_mul] at hmul
      simp only [Params.ledOff, Params.cfgSizeOf]
      omega
    · have hlen := field_length_le p rec k
      obtain rfl := List.mem_singleton.mp h
      exact ⟨le_rfl, Nat.add_le_add_left hlen _⟩
  · cases h

/-- Sub-fields do not overlap. -/
theorem outside_of_index_ne {p : Params} {rec : List Byte} {sub ledsub : Half} {j k : SubField}
    (hne : j ≠ k) {w : Nat × List Byte} (hw : w ∈ fieldWrites p rec sub ledsub j) {a : Nat}
    (h1 : p.cfgOff k ≤ a) (h2 : a < p.cfgOff k + p.cfgSizeOf k) : outside a w := by
  obtain ⟨hlo, hhi⟩ := fieldWrites_inside hw
  have hidx : j.index ≠ k.index := fun e => hne (by cases j <;> cases k <;> simp_all [SubField.index])
  rcases Nat.lt_or_gt_of_ne hidx with hlt | hgt
  · have := cfgOff_lt (p := p) hlt
    exact .inr (by omega)
  · have := cfgOff_lt (p := p) hgt
    exact .inl (by omega)

/-- The writes of a walk stay inside the record. -/
theorem read_patch_recordWrites_of_ge {p : Params} {rec : List Byte} {sub ledsub : Half} {m : Memory}
    (hwf : m.wf = true) {a : Nat} (ha : p.cfgTotal ≤ a) :
    (m.patch (recordWrites p rec sub ledsub)).read a = m.read a := by
  refine Memory.read_patch_outside hwf fun w hw => ?_
  obtain ⟨k, -, hw⟩ := List.mem_flatMap.mp hw
  have hin := (fieldWrites_inside hw).2
  have htotal := cfgOff_add_size_le p k
  exact .inr (by omega)

/-- What one sub-field holds after a walk. -/
theorem readBytes_patch_recordWrites {p : Params} {rec : List Byte} {sub ledsub : Half} {m : Memory}
    (hwf : m.wf = true) (hrec : rec.length = p.cfgTotal) (k : SubField) :
    (m.patch (recordWrites p rec sub ledsub)).readBytes (p.cfgOff k) (p.cfgSizeOf k) =
      if sub.getLsbD (p.subBitOf k) then
        (if k = .ledStates then (List.range 16).flatMap fun i =>
          if ledsub.getLsbD i then p.led rec i else m.readBytes (p.ledOff i) p.ledEntrySize
         else p.field rec k)
      else m.readBytes (p.cfgOff k) (p.cfgSizeOf k) := by
  have hown : (m.patch (recordWrites p rec sub ledsub)).readBytes (p.cfgOff k) (p.cfgSizeOf k) =
      (m.patch (fieldWrites p rec sub ledsub k)).readBytes (p.cfgOff k) (p.cfgSizeOf k) := by
    refine Memory.readBytes_congr _ _ _ _ fun a h1 h2 => ?_
    exact Memory.read_patch_flatMap hwf (by decide) (by cases k <;> decide) fun j _ hne w hw =>
      outside_of_index_ne hne hw h1 h2
  rw [hown, fieldWrites]
  split
  · split
    · next hk =>
      subst hk
      rw [readBytes_leds]
      refine List.flatMap_congr fun i hi => ?_
      exact readBytes_patch_ledWrites hwf (fitsLeds_led p hrec) (List.mem_range.mp hi)
    · have := Memory.readBytes_writeBytes m hwf (p.cfgOff k) (p.field rec k)
      rwa [field_length p k hrec] at this
  · rfl

/-- The record after the writes of a walk is the merged record (R175 to R177). -/
theorem readBytes_patch_eq_mergePartial {p : Params} {rec : List Byte} {sub ledsub : Half} {m : Memory}
    (hwf : m.wf = true) (hrec : rec.length = p.cfgTotal) :
    (m.patch (recordWrites p rec sub ledsub)).readBytes 0 p.cfgTotal =
      p.mergePartial (m.readBytes 0 p.cfgTotal) rec sub ledsub := by
  rw [readBytes_fields, Params.mergePartial]
  refine List.flatMap_congr fun k _ => ?_
  rw [readBytes_patch_recordWrites hwf hrec k, field_readBytes]
  have hleds : ((List.range 16).flatMap fun i => if ledsub.getLsbD i then p.led rec i
        else m.readBytes (p.ledOff i) p.ledEntrySize) =
      (List.range 16).flatMap fun i => if ledsub.getLsbD i then p.led rec i
        else p.led (m.readBytes 0 p.cfgTotal) i :=
    List.flatMap_congr fun i hi => by rw [led_readBytes p m (List.mem_range.mp hi)]
  rw [hleds]

/-! ### Walks: what a row takes and writes -/

/-- What a row of a walk, or a whole walk, does: the bytes it takes from the payload, its writes into
WCFG, and the sub-submask it leaves in `ledsub`, if it reads one. -/
structure Walk where
  taken : List Byte
  writes : List (Nat × List Byte)
  ledsub : Option Half

/-- A walk that does nothing. -/
def Walk.empty : Walk := ⟨[], [], none⟩

/-- One walk and then another. -/
def Walk.andThen (x y : Walk) : Walk := ⟨x.taken ++ y.taken, x.writes ++ y.writes, y.ledsub.or x.ledsub⟩

/-- Walks one after the other. -/
def Walk.all : List Walk → Walk
  | [] => .empty
  | x :: xs => x.andThen (Walk.all xs)

theorem Walk.all_taken (xs : List Walk) : (Walk.all xs).taken = xs.flatMap Walk.taken := by
  induction xs with
  | nil => rfl
  | cons x xs ih => rw [Walk.all, Walk.andThen, ih, List.flatMap_cons]

theorem Walk.all_writes (xs : List Walk) : (Walk.all xs).writes = xs.flatMap Walk.writes := by
  induction xs with
  | nil => rfl
  | cons x xs ih => rw [Walk.all, Walk.andThen, ih, List.flatMap_cons]

theorem Walk.all_ledsub_of_none {xs : List Walk} (h : ∀ x ∈ xs, x.ledsub = none) :
    (Walk.all xs).ledsub = none := by
  induction xs with
  | nil => rfl
  | cons x xs ih =>
    rw [Walk.all, Walk.andThen, ih fun y hy => h y (List.mem_cons_of_mem _ hy),
      h x List.mem_cons_self]
    rfl

/-- The state after a walk. -/
def State.walked (s : State) (x : Walk) : State :=
  { s.consumed x.taken.length with
    disp := { s.disp with wcfg := s.disp.wcfg.patch x.writes, ledsub := x.ledsub.getD s.disp.ledsub } }

@[simp] theorem State.walked_params (s : State) (x : Walk) : (s.walked x).params = s.params := rfl
@[simp] theorem State.walked_ctl (s : State) (x : Walk) : (s.walked x).ctl = s.ctl := rfl
@[simp] theorem State.walked_rx (s : State) (x : Walk) : (s.walked x).rx = s.rx := rfl
@[simp] theorem State.walked_rd (s : State) (x : Walk) :
    (s.walked x).rd = (s.consumed x.taken.length).rd := rfl
@[simp] theorem State.walked_disp (s : State) (x : Walk) : (s.walked x).disp = { s.disp with
    wcfg := s.disp.wcfg.patch x.writes, ledsub := x.ledsub.getD s.disp.ledsub } := rfl
@[simp] theorem State.walked_wr (s : State) (x : Walk) : (s.walked x).wr = s.wr := rfl
@[simp] theorem State.walked_tel (s : State) (x : Walk) : (s.walked x).tel = s.tel := rfl
@[simp] theorem State.walked_env (s : State) (x : Walk) : (s.walked x).env = s.env := rfl
@[simp] theorem State.walked_out (s : State) (x : Walk) : (s.walked x).out = s.out := rfl
@[simp] theorem State.walked_stimuli (s : State) (x : Walk) : (s.walked x).stimuli = s.stimuli := rfl

theorem State.walked_empty (s : State) : s.walked .empty = s := rfl

theorem State.walked_walked (s : State) (x y : Walk) : (s.walked x).walked y = s.walked (x.andThen y) := by
  have hpos : s.rd.pos + x.taken.length + y.taken.length = s.rd.pos + (x.taken ++ y.taken).length := by
    rw [List.length_append, Nat.add_assoc]
  have hled : y.ledsub.getD (x.ledsub.getD s.disp.ledsub) = (y.ledsub.or x.ledsub).getD s.disp.ledsub := by
    cases y.ledsub <;> rfl
  simp only [State.walked, Walk.andThen, State.consumed, hpos, hled, Memory.patch_append]

/-- Rows that each do their walk, where the payload carries the bytes they take, do so in turn. -/
theorem runAll_walked {α : Type} (g : α → State → Res State) (x : α → Walk) (Q : State → Prop)
    (l : List α) (hQ : ∀ a ∈ l, ∀ s, Q s → Q (s.walked (x a)))
    (hg : ∀ a ∈ l, ∀ s, Q s → s.carries (x a).taken → g a s = .ok (s.walked (x a))) :
    ∀ s, Q s → s.carries (Walk.all (l.map x)).taken →
      runAll (l.map g) s = .ok (s.walked (Walk.all (l.map x))) := by
  induction l with
  | nil => exact fun s _ _ => rfl
  | cons a t ih =>
    intro s hs hc
    obtain ⟨hca, hct⟩ := State.carries.of_append (xs := (x a).taken) hc
    rw [List.map_cons, runAll_cons, hg a List.mem_cons_self s hs hca, bind_ok,
      ih (fun b hb => hQ b (List.mem_cons_of_mem _ hb)) (fun b hb => hg b (List.mem_cons_of_mem _ hb))
        _ (hQ a List.mem_cons_self s hs) hct, State.walked_walked]
    rfl

/-! ### LED entries in a walk (R85, R176, R177) -/

/-- What LED entry `i` takes and writes in `ParsePartial`. -/
def ledParseWalk (p : Params) (ledsub : Half) (b : Nat → List Byte) (i : Nat) : Walk :=
  if ledsub.getLsbD i then ⟨b i, [(p.ledOff i, b i)], none⟩ else .empty

/-- What LED entry `i` writes in `ResetPartial`. -/
def ledResetWalk (p : Params) (ledsub : Half) (b : Nat → List Byte) (i : Nat) : Walk :=
  if ledsub.getLsbD i then ⟨[], [(p.ledOff i, b i)], none⟩ else .empty

/-- The bytes of the first `n` LED entries that `ledsub` selects. -/
def ledBytes (ledsub : Half) (b : Nat → List Byte) (n : Nat) : List Byte :=
  (List.range n).flatMap fun i => if ledsub.getLsbD i then b i else []

theorem Walk.ext_of {x y : Walk} (h1 : x.taken = y.taken) (h2 : x.writes = y.writes)
    (h3 : x.ledsub = y.ledsub) : x = y := by
  cases x; cases y; cases h1; cases h2; cases h3; rfl

theorem all_ledParseWalk (p : Params) (ledsub : Half) (b : Nat → List Byte) (n : Nat) :
    Walk.all ((List.range n).map (ledParseWalk p ledsub b)) =
      ⟨ledBytes ledsub b n, ledWrites p ledsub b n, none⟩ := by
  refine Walk.ext_of ?_ ?_ (Walk.all_ledsub_of_none fun x hx => ?_)
  · rw [Walk.all_taken, List.flatMap_map]
    exact List.flatMap_congr fun i _ => by unfold ledParseWalk; split <;> rfl
  · rw [Walk.all_writes, List.flatMap_map]
    exact List.flatMap_congr fun i _ => by unfold ledParseWalk; split <;> rfl
  · obtain ⟨i, -, rfl⟩ := List.mem_map.mp hx
    unfold ledParseWalk
    split <;> rfl

theorem all_ledResetWalk (p : Params) (ledsub : Half) (b : Nat → List Byte) (n : Nat) :
    Walk.all ((List.range n).map (ledResetWalk p ledsub b)) = ⟨[], ledWrites p ledsub b n, none⟩ := by
  refine Walk.ext_of ?_ ?_ (Walk.all_ledsub_of_none fun x hx => ?_)
  · rw [Walk.all_taken, List.flatMap_map]
    exact List.flatMap_eq_nil_iff.mpr fun i _ => by unfold ledResetWalk; split <;> rfl
  · rw [Walk.all_writes, List.flatMap_map]
    exact List.flatMap_congr fun i _ => by unfold ledResetWalk; split <;> rfl
  · obtain ⟨i, -, rfl⟩ := List.mem_map.mp hx
    unfold ledResetWalk
    split <;> rfl

/-- Bytes that the payload carries are parsed into WCFG. -/
theorem parseToWcfg_of_carries {off : Nat} {bs : List Byte} {s : State} (h : s.carries bs)
    (hin : off + bs.length ≤ s.params.cfgTotal) :
    parseToWcfg off bs.length s = .ok (s.walked ⟨bs, [(off, bs)], none⟩) := by
  obtain ⟨hparse, hbytes⟩ := h
  rw [parseToWcfg_eq hparse hin, hbytes]
  rfl

/-- What a walk at the LED entries finds: the parameters and the sub-submask that select and place them. -/
def LedsReady (p : Params) (ledsub : Half) (s : State) : Prop := s.params = p ∧ s.disp.ledsub = ledsub

theorem parseLedEntry_walked {p : Params} {ledsub : Half} {b : Nat → List Byte} {i : Nat} {s : State}
    (hi : i < 16) (hs : LedsReady p ledsub s) (hok : s.disp.ok = true) (hb : (b i).length = p.ledEntrySize)
    (hc : s.carries (ledParseWalk p ledsub b i).taken) :
    parseLedEntry i s = .ok (s.walked (ledParseWalk p ledsub b i)) := by
  obtain ⟨rfl, rfl⟩ := hs
  cases hsel : s.disp.ledsub.getLsbD i with
  | true =>
    have hw : ledParseWalk s.params s.disp.ledsub b i = ⟨b i, [(s.params.ledOff i, b i)], none⟩ :=
      if_pos hsel
    have hin := ledOff_add_size_le s.params hi
    rw [hw] at hc ⊢
    rw [parseLedEntry, State.ledSelected, hok, hsel, Bool.and_self, if_pos rfl, ← hb]
    exact parseToWcfg_of_carries hc (by omega)
  | false => simp [parseLedEntry, State.ledSelected, ledParseWalk, hsel, State.walked_empty]

theorem resetLedEntry_walked {p : Params} {ledsub : Half} {i : Nat} {s : State} (hi : i < 16)
    (hs : LedsReady p ledsub s) :
    resetLedEntry i s = .ok (s.walked (ledResetWalk p ledsub (p.led p.cfgDefault) i)) := by
  obtain ⟨rfl, rfl⟩ := hs
  cases hsel : s.disp.ledsub.getLsbD i with
  | true =>
    have hlen := led_length_le s.params s.params.cfgDefault i
    have hin := ledOff_add_size_le s.params hi
    rw [resetLedEntry, State.ledSelected, if_pos hsel, memWrite_wcfg_eq (by omega), ledResetWalk,
      if_pos hsel]
    rfl
  | false => simp [resetLedEntry, State.ledSelected, ledResetWalk, hsel, State.walked_empty]

theorem ledParseWalk_ledsub (p : Params) (ledsub : Half) (b : Nat → List Byte) (i : Nat) :
    (ledParseWalk p ledsub b i).ledsub = none := by unfold ledParseWalk; split <;> rfl

theorem ledResetWalk_ledsub (p : Params) (ledsub : Half) (b : Nat → List Byte) (i : Nat) :
    (ledResetWalk p ledsub b i).ledsub = none := by unfold ledResetWalk; split <;> rfl

theorem LedsReady.walked {p : Params} {ledsub : Half} {s : State} {x : Walk} (h : LedsReady p ledsub s)
    (hx : x.ledsub = none) : LedsReady p ledsub (s.walked x) := by
  refine ⟨h.1, ?_⟩
  simp only [State.walked, hx, Option.getD_none]
  exact h.2

/-- The first `n` LED entries are parsed where the payload carries their bytes. -/
theorem runAll_parseLedEntry {p : Params} {ledsub : Half} {b : Nat → List Byte} {n : Nat} {s : State}
    (hn : n ≤ 16) (hs : LedsReady p ledsub s) (hok : s.disp.ok = true) (hb : fitsLeds p b n)
    (hc : s.carries (ledBytes ledsub b n)) :
    runAll ((List.range n).map parseLedEntry) s =
      .ok (s.walked ⟨ledBytes ledsub b n, ledWrites p ledsub b n, none⟩) := by
  have h := runAll_walked parseLedEntry (ledParseWalk p ledsub b)
    (fun u => LedsReady p ledsub u ∧ u.disp.ok = true) (List.range n)
    (fun i _ u hu => ⟨hu.1.walked (ledParseWalk_ledsub ..), hu.2⟩)
    (fun i hi u hu huc => by
      have hlt := List.mem_range.mp hi
      exact parseLedEntry_walked (by omega) hu.1 hu.2 (hb i hlt) huc) s ⟨hs, hok⟩
  rw [all_ledParseWalk] at h
  exact h hc

/-- All LED entries are reset. -/
theorem allLeds_resetLedEntry {p : Params} {ledsub : Half} {s : State} (hs : LedsReady p ledsub s)
    (hbound : s.readerBounded) :
    allLeds resetLedEntry s =
      .ok (s.walked ⟨[], ledWrites p ledsub (p.led p.cfgDefault) 16, none⟩) := by
  have h := runAll_walked resetLedEntry (ledResetWalk p ledsub (p.led p.cfgDefault)) (LedsReady p ledsub)
    (List.range 16) (fun i _ u hu => hu.walked (ledResetWalk_ledsub ..))
    (fun i hi u hu _ => resetLedEntry_walked (List.mem_range.mp hi) hu) s hs
  rw [all_ledResetWalk] at h
  exact h ⟨hbound, rfl⟩

/-- The sub-submask, taken from the payload, is a walk of its own. -/
theorem readLedsub_of_carries {s : State} {l : Half} (entries : State → Res State)
    (h : s.carries (le2 l)) : readLedsub entries s = entries (s.walked ⟨le2 l, [], some l⟩) := by
  obtain ⟨hparse, hbytes⟩ := h
  exact readLedsub_eq entries hparse hbytes

/-! ### Whole walks (R176, R177) -/

/-- What a walk finds at every sub-field: the parameters, its submask, and `ok`. -/
def FieldsReady (p : Params) (sub : Half) (s : State) : Prop :=
  s.params = p ∧ s.disp.sub = sub ∧ s.disp.ok = true

/-- The sub-submask that a sub-field leaves in its register. -/
def fieldLedsub (p : Params) (sub ledsub : Half) (k : SubField) : Option Half :=
  if sub.getLsbD (p.subBitOf k) ∧ k = .ledStates then some ledsub else none

/-- What a sub-field of `ParsePartial` takes and writes, on the payload of R86 for `rec`. -/
def fieldParseWalk (p : Params) (rec : List Byte) (sub ledsub : Half) (k : SubField) : Walk :=
  ⟨p.partialField rec sub ledsub k, fieldWrites p rec sub ledsub k, fieldLedsub p sub ledsub k⟩

/-- What a sub-field of `ResetPartial` takes and writes. -/
def fieldResetWalk (p : Params) (sub ledsub : Half) (k : SubField) : Walk :=
  ⟨if sub.getLsbD (p.subBitOf k) ∧ k = .ledStates then le2 ledsub else [],
    fieldWrites p p.cfgDefault sub ledsub k, fieldLedsub p sub ledsub k⟩

theorem parseField_walked {p : Params} {rec : List Byte} {sub ledsub : Half} {k : SubField} {s : State}
    (hrec : rec.length = p.cfgTotal) (hs : FieldsReady p sub s)
    (hc : s.carries (fieldParseWalk p rec sub ledsub k).taken) :
    parseField k s = .ok (s.walked (fieldParseWalk p rec sub ledsub k)) := by
  obtain ⟨rfl, rfl, hok⟩ := hs
  cases hsel : s.disp.sub.getLsbD (s.params.subBitOf k) with
  | false =>
    rw [← subRow, subRow_of_clear (k := k) hsel .parse]
    simp [fieldParseWalk, Params.partialField, fieldWrites, fieldLedsub, hsel]
    rfl
  | true =>
    by_cases hk : k = .ledStates
    · subst hk
      have hw : fieldParseWalk s.params rec s.disp.sub ledsub .ledStates =
          Walk.andThen ⟨le2 ledsub, [], some ledsub⟩ ⟨ledBytes ledsub (s.params.led rec) 16,
            ledWrites s.params ledsub (s.params.led rec) 16, none⟩ := by
        simp [fieldParseWalk, Params.partialField, fieldWrites, fieldLedsub, hsel, Walk.andThen, ledBytes]
      rw [hw] at hc ⊢
      obtain ⟨hc1, hc2⟩ := State.carries.of_append hc
      rw [parseField, State.subSelected, hsel, hok, Bool.true_or, Bool.and_self, if_pos rfl, if_pos rfl,
        readLedsub_of_carries _ hc1, allLeds,
        runAll_parseLedEntry (p := s.params) (ledsub := ledsub)
          (s := s.walked ⟨le2 ledsub, [], some ledsub⟩) le_rfl ⟨rfl, rfl⟩ hok
          (fitsLeds_led s.params hrec) hc2, State.walked_walked]
    · have hw : fieldParseWalk s.params rec s.disp.sub ledsub k =
          ⟨s.params.field rec k, [(s.params.cfgOff k, s.params.field rec k)], none⟩ := by
        simp [fieldParseWalk, Params.partialField, fieldWrites, fieldLedsub, hsel, hk]
      have hlen := field_length s.params k hrec
      have hin := cfgOff_add_size_le s.params k
      rw [hw] at hc ⊢
      rw [parseField_of_ok hk hsel hok, ← hlen]
      exact parseToWcfg_of_carries hc (by omega)

theorem resetField_walked {p : Params} {sub ledsub : Half} {k : SubField} {s : State}
    (hs : FieldsReady p sub s) (hc : s.carries (fieldResetWalk p sub ledsub k).taken) :
    resetField k s = .ok (s.walked (fieldResetWalk p sub ledsub k)) := by
  obtain ⟨rfl, rfl, hok⟩ := hs
  cases hsel : s.disp.sub.getLsbD (s.params.subBitOf k) with
  | false =>
    rw [← subRow, subRow_of_clear (k := k) hsel .reset]
    simp [fieldResetWalk, fieldWrites, fieldLedsub, hsel]
    rfl
  | true =>
    by_cases hk : k = .ledStates
    · subst hk
      have hw : fieldResetWalk s.params s.disp.sub ledsub .ledStates =
          Walk.andThen ⟨le2 ledsub, [], some ledsub⟩
            ⟨[], ledWrites s.params ledsub (s.params.led s.params.cfgDefault) 16, none⟩ := by
        simp [fieldResetWalk, fieldWrites, fieldLedsub, hsel, Walk.andThen]
      rw [hw] at hc ⊢
      obtain ⟨hc1, hc2⟩ := State.carries.of_append hc
      rw [resetField, State.subSelected, hsel, if_pos rfl, if_pos rfl, readLedsub_of_carries _ hc1,
        allLeds_resetLedEntry (p := s.params) (ledsub := ledsub)
          (s := s.walked ⟨le2 ledsub, [], some ledsub⟩) ⟨rfl, rfl⟩ hc2.1, State.walked_walked]
    · have hw : fieldResetWalk s.params s.disp.sub ledsub k =
          ⟨[], [(s.params.cfgOff k, s.params.field s.params.cfgDefault k)], none⟩ := by
        simp [fieldResetWalk, fieldWrites, fieldLedsub, hsel, hk]
      rw [hw, resetField_of_selected hk hsel]
      rfl

/-- The sub-submask that a whole walk leaves in its register. -/
def walkLedsub (p : Params) (sub ledsub : Half) : Option Half :=
  if sub.getLsbD (p.subBitOf .ledStates) then some ledsub else none

/-- What `ParsePartial` takes and writes on the payload of R86 for `rec`. -/
def parseWalk (p : Params) (rec : List Byte) (sub ledsub : Half) : Walk :=
  ⟨SubField.all.flatMap (p.partialField rec sub ledsub), recordWrites p rec sub ledsub,
    walkLedsub p sub ledsub⟩

/-- What `ResetPartial` takes and writes. -/
def resetWalk (p : Params) (sub ledsub : Half) : Walk :=
  ⟨if sub.getLsbD (p.subBitOf .ledStates) then le2 ledsub else [],
    recordWrites p p.cfgDefault sub ledsub, walkLedsub p sub ledsub⟩

/-- Of the nine sub-fields only led-states leaves a sub-submask. -/
theorem all_ledsub {x : SubField → Walk} {p : Params} {sub ledsub : Half}
    (h : ∀ k, (x k).ledsub = fieldLedsub p sub ledsub k) :
    (Walk.all (SubField.all.map x)).ledsub = walkLedsub p sub ledsub := by
  simp [SubField.all, Walk.all, Walk.andThen, Walk.empty, h, fieldLedsub, walkLedsub]

theorem all_fieldParseWalk (p : Params) (rec : List Byte) (sub ledsub : Half) :
    Walk.all (SubField.all.map (fieldParseWalk p rec sub ledsub)) = parseWalk p rec sub ledsub := by
  refine Walk.ext_of ?_ ?_ (all_ledsub fun _ => rfl)
  · rw [Walk.all_taken, List.flatMap_map]
    rfl
  · rw [Walk.all_writes, List.flatMap_map]
    rfl

theorem all_fieldResetWalk (p : Params) (sub ledsub : Half) :
    Walk.all (SubField.all.map (fieldResetWalk p sub ledsub)) = resetWalk p sub ledsub := by
  refine Walk.ext_of ?_ ?_ (all_ledsub fun _ => rfl)
  · rw [Walk.all_taken, List.flatMap_map]
    simp [SubField.all, fieldResetWalk, resetWalk]
  · rw [Walk.all_writes, List.flatMap_map]
    rfl

theorem FieldsReady.walked {p : Params} {sub : Half} {s : State} (h : FieldsReady p sub s) (x : Walk) :
    FieldsReady p sub (s.walked x) := h

/-- R176: `ParsePartial` on the payload of R86 for `rec` takes it whole. -/
theorem parsePartial_walked {s : State} {rec : List Byte} {sub ledsub : Half}
    (hrec : rec.length = s.params.cfgTotal) (hc : s.carries (parseWalk s.params rec sub ledsub).taken) :
    parsePartial sub s =
      .ok (((s.setSub sub).setOk true).walked (parseWalk s.params rec sub ledsub)) := by
  have h := runAll_walked (subRow · .parse) (fieldParseWalk s.params rec sub ledsub)
    (FieldsReady s.params sub) SubField.all (fun _ _ _ hu => hu.walked _)
    (fun k _ u hu huc => parseField_walked hrec hu huc) ((s.setSub sub).setOk true) ⟨rfl, rfl, rfl⟩
  rw [all_fieldParseWalk] at h
  exact h hc

/-- R177: `ResetPartial` on a payload that carries the sub-submask, if it needs one. -/
theorem resetPartial_walked {s : State} {sub ledsub : Half}
    (hc : s.carries (resetWalk s.params sub ledsub).taken) :
    resetPartial sub s = .ok (((s.setSub sub).setOk true).walked (resetWalk s.params sub ledsub)) := by
  have h := runAll_walked (subRow · .reset) (fieldResetWalk s.params sub ledsub)
    (FieldsReady s.params sub) SubField.all (fun _ _ _ hu => hu.walked _)
    (fun k _ u hu huc => resetField_walked hu huc) ((s.setSub sub).setOk true) ⟨rfl, rfl, rfl⟩
  rw [all_fieldResetWalk] at h
  exact h hc

end Sys2Proof.Machine
end

section
/-! The partial record procedures and operations (43_config_record.md, 45_dispatcher_config_ops.md):
led-states in each walk (R85, R175 to R177), `ParsePartial` and `ResetPartial` (R176, R177), and the
commit paths of the two partial operations (R243, R244). -/

namespace Sys2Proof.Machine

/-! ### `ParsePartial` and `ResetPartial` (R176, R177) -/

theorem walkLedsub_getD (p : Params) (sub ledsub v : Half) :
    (walkLedsub p sub ledsub).getD v = if sub.getLsbD (p.subBitOf .ledStates) then ledsub else v := by
  unfold walkLedsub
  split <;> rfl

/-- A whole walk, field by field: the bytes taken, the registers, and the writes into WCFG. -/
theorem walked_eq {s : State} {sub ledsub : Half} {x : Walk} {n : Nat} (hn : x.taken.length = n)
    (hled : x.ledsub = walkLedsub s.params sub ledsub) :
    ((s.setSub sub).setOk true).walked x = { s.consumed n with
      disp := { s.disp with
        sub := sub,
        ledsub := if sub.getLsbD (s.params.subBitOf .ledStates) then ledsub else s.disp.ledsub,
        ok := true, wcfg := s.disp.wcfg.patch x.writes } } := by
  rw [← walkLedsub_getD, ← hled, ← hn]
  rfl

theorem wcfgRecord_walked {s : State} {rec : List Byte} {sub ledsub : Half} {x : Walk}
    (hwf : s.disp.wcfg.wf = true) (hrec : rec.length = s.params.cfgTotal)
    (hx : x.writes = recordWrites s.params rec sub ledsub) :
    (s.walked x).wcfgRecord = s.params.mergePartial s.wcfgRecord rec sub ledsub := by
  unfold State.wcfgRecord State.walked
  rw [hx]
  exact readBytes_patch_eq_mergePartial hwf hrec

/-- R86: the payload of `ParsePartial` is the layout after its submask word. -/
theorem drop_partialLayout (p : Params) (rec : List Byte) (sub ledsub : Half) :
    (p.partialLayout rec sub ledsub).drop 2 = (parseWalk p rec sub ledsub).taken :=
  List.drop_left' (le2_length sub)

theorem parseWalk_taken_length (p : Params) {rec : List Byte} (h : rec.length = p.cfgTotal)
    (sub ledsub : Half) :
    (parseWalk p rec sub ledsub).taken.length = p.partialLen sub ledsub - 2 := by
  rw [← drop_partialLayout, List.length_drop, partialLayout_length p h]

theorem drop_requestWords (p : Params) (sub ledsub : Half) :
    (p.requestWords sub ledsub).drop 2 = (resetWalk p sub ledsub).taken :=
  List.drop_left' (le2_length sub)

theorem resetWalk_taken_length (p : Params) (sub ledsub : Half) :
    (resetWalk p sub ledsub).taken.length = (p.requestWords sub ledsub).length - 2 := by
  rw [← drop_requestWords, List.length_drop]

/-- What O19 and O20 say of a walk that takes its bytes and writes the parts of `rec`. -/
theorem walk_row {s : State} {rec : List Byte} {sub ledsub : Half} {x : Walk} {n : Nat}
    (hwf : s.disp.wcfg.wf = true) (hrec : rec.length = s.params.cfgTotal) (hn : x.taken.length = n)
    (hled : x.ledsub = walkLedsub s.params sub ledsub)
    (hx : x.writes = recordWrites s.params rec sub ledsub) :
    let t := (((s.setSub sub).setOk true).walked x).setResult (.flag true)
    t.wcfgRecord = s.params.mergePartial s.wcfgRecord rec sub ledsub ∧
      (∀ a, s.params.cfgTotal ≤ a → t.disp.wcfg.read a = s.disp.wcfg.read a) ∧
      t = ({ s.consumed n with
        disp := { s.disp with
          sub := sub,
          ledsub := if sub.getLsbD (s.params.subBitOf .ledStates) then ledsub else s.disp.ledsub,
          ok := true, wcfg := t.disp.wcfg } } : State).setResult (.flag true) := by
  refine ⟨wcfgRecord_walked (s := (s.setSub sub).setOk true) hwf hrec hx, fun a ha => ?_, ?_⟩
  · exact (congrArg (fun ws => (s.disp.wcfg.patch ws).read a) hx).trans
      (read_patch_recordWrites_of_ge hwf ha)
  · exact congrArg (·.setResult (.flag true)) (walked_eq hn hled)

/-- Settles O19: the payload is what the nine rows take in turn, and each writes what it takes into its own
place. -/
theorem parsePartialReadsBackWritePartial : Obligations.ParsePartialReadsBackWritePartial := by
  intro s rec sub ledsub hwf hrec hparse hbytes
  have hlen := parseWalk_taken_length s.params hrec sub ledsub
  rw [drop_partialLayout, ← hlen] at hbytes
  rw [← hlen] at hparse
  refine ⟨_, ?_, walk_row hwf hrec hlen rfl rfl⟩
  rw [exec_parsePartial, parsePartial_walked hrec ⟨hparse, hbytes⟩, map_ok, outcome_ok]
  rfl

/-- Settles O20: the defaults take the place of the payload's bytes, but for the sub-submask. -/
theorem resetPartialRow : Obligations.ResetPartialRow := by
  intro s sub ledsub hwf hp hparse hbytes
  have hlen := resetWalk_taken_length s.params sub ledsub
  rw [drop_requestWords, ← hlen] at hbytes
  rw [← hlen] at hparse
  refine ⟨_, ?_, walk_row hwf (Params.wf_default hp).1 hlen rfl rfl⟩
  rw [exec_resetPartial, resetPartial_walked ⟨hparse, hbytes⟩, map_ok, outcome_ok]
  rfl

/-! ### led-states by itself (R85, R175 to R177) -/

/-- The number of the first `n` LED entries that `ledsub` selects. -/
def ledCount (ledsub : Half) (n : Nat) : Nat := (List.range n).countP fun j => ledsub.getLsbD j

theorem ledCount_succ (ledsub : Half) (n : Nat) :
    ledCount ledsub (n + 1) = ledCount ledsub n + if ledsub.getLsbD n then 1 else 0 := by
  rw [ledCount, List.range_succ, List.countP_append, List.countP_singleton]
  rfl

/-- The bytes of the selected entries stand one after the other. -/
theorem readBytes_eq_ledBytes (m : Memory) (a e : Nat) (ledsub : Half) (n : Nat) :
    m.readBytes a (e * ledCount ledsub n) =
      ledBytes ledsub (fun i => m.readBytes (a + e * ledCount ledsub i) e) n := by
  induction n with
  | zero => rfl
  | succ n ih =>
    rw [ledBytes, List.range_succ, List.flatMap_append, ← ledBytes, ← ih, ledCount_succ]
    cases h : ledsub.getLsbD n with
    | true => simp [h, Nat.mul_add, Memory.readBytes_add]
    | false => simp [h]

/-- After a failure no entry is tried. -/
theorem runAll_parseLedEntry_of_failed {s : State} (h : s.disp.ok = false) (l : List Nat) :
    runAll (l.map parseLedEntry) s = .ok s := by
  induction l with
  | nil => rfl
  | cons i l ih => rw [List.map_cons, runAll_cons, parseLedEntry, h, Bool.false_and,
      if_neg Bool.false_ne_true, bind_ok, ih]

theorem parseLedEntry_short {s : State} {i : Nat} (hok : s.disp.ok = true)
    (hsel : s.disp.ledsub.getLsbD i = true) (h : s.short s.params.ledEntrySize) :
    parseLedEntry i s = .ok (s.setOk false) := by
  rw [parseLedEntry, State.ledSelected, hok, hsel, Bool.and_self, if_pos rfl, parseToWcfg_short h]

theorem exists_range_eq_append_cons {n m : Nat} (h : n < m) :
    ∃ rest, List.range m = List.range n ++ n :: rest := by
  obtain ⟨k, rfl⟩ := Nat.exists_eq_add_of_lt h
  exact ⟨_, by rw [Nat.add_assoc, List.range_add, List.range_succ_eq_map, List.map_cons, Nat.add_zero]⟩

/-- R176: the entries are parsed up to the first that runs short. -/
theorem allLeds_parseLedEntry {p : Params} {ledsub : Half} {b : Nat → List Byte} {n : Nat} {s : State}
    (hn : n ≤ 16) (hs : LedsReady p ledsub s) (hok : s.disp.ok = true) (hb : fitsLeds p b n)
    (hc : s.carries (ledBytes ledsub b n))
    (hstop : n = 16 ∨ (ledsub.getLsbD n = true ∧
      (s.consumed (ledBytes ledsub b n).length).short p.ledEntrySize)) :
    allLeds parseLedEntry s =
      .ok ((s.walked ⟨ledBytes ledsub b n, ledWrites p ledsub b n, none⟩).setOk (decide (n = 16))) := by
  have hfirst := runAll_parseLedEntry hn hs hok hb hc
  obtain ⟨rfl, rfl⟩ := hs
  let u := s.walked ⟨ledBytes s.disp.ledsub b n, ledWrites s.params s.disp.ledsub b n, none⟩
  by_cases h16 : n = 16
  · have hu : u.setOk true = u := setOk_self (s := u) hok
    rw [decide_eq_true h16, hu, ← hfirst, h16, allLeds]
  · obtain ⟨hsel, hshort⟩ := hstop.resolve_left h16
    obtain ⟨rest, hsplit⟩ := exists_range_eq_append_cons (lt_of_le_of_ne hn h16)
    have hstop : parseLedEntry n u = .ok (u.setOk false) := parseLedEntry_short (s := u) hok hsel hshort
    rw [allLeds, hsplit, List.map_append, runAll_append, hfirst, bind_ok, List.map_cons, runAll_cons,
      hstop, bind_ok, runAll_parseLedEntry_of_failed rfl, decide_eq_false h16]

theorem exec_ledStates_parse {s : State} (hsel : s.subSelected .ledStates = true)
    (hok : s.disp.ok = true) :
    exec (.ledStates .parse) s = outcome (readLedsub (allLeds parseLedEntry) s) := by
  rw [← SubField.instr, exec_sub, subRow, parseField, hsel, hok, Bool.true_or, Bool.and_self, if_pos rfl,
    if_pos rfl]

theorem exec_ledStates_reset {s : State} (hsel : s.subSelected .ledStates = true) :
    exec (.ledStates .reset) s = outcome (readLedsub (allLeds resetLedEntry) s) := by
  rw [← SubField.instr, exec_sub, subRow, resetField, if_pos hsel, if_pos rfl]

/-- Settles O24: the bytes after the sub-submask are those of the selected entries one after the other, and
the entries do not overlap. -/
theorem ledStatesParse : Obligations.LedStatesParse := by
  intro s l n hwf hsel hok hbytes e c hn hparse hstop
  let b := fun i => s.rd.buf.readBytes (s.rd.pos + 2 + e * c i) e
  have hb : fitsLeds s.params b n := fun i _ => Memory.readBytes_length ..
  have hbody : s.rd.buf.readBytes (s.rd.pos + 2) (e * c n) = ledBytes l b n :=
    readBytes_eq_ledBytes s.rd.buf (s.rd.pos + 2) e l n
  have hlen : (ledBytes l b n).length = e * c n := by rw [← hbody, Memory.readBytes_length]
  have hword : s.carries (le2 l) := by
    obtain ⟨h1, h2⟩ := hparse
    exact ⟨⟨by rw [le2_length]; omega, h2⟩, by rw [le2_length]; exact hbytes⟩
  let u := s.walked ⟨le2 l, [], some l⟩
  have hentries : u.carries (ledBytes l b n) := by
    obtain ⟨h1, h2⟩ := hparse
    rw [State.carries, hlen]
    exact ⟨⟨(Nat.add_assoc s.rd.pos 2 (e * c n)).trans_le h1, h2⟩, hbody⟩
  have hstop' : n = 16 ∨ (l.getLsbD n = true ∧
      (u.consumed (ledBytes l b n).length).short s.params.ledEntrySize) := by
    rw [hlen]
    refine hstop.imp_right fun ⟨h1, h2⟩ => ⟨h1, ?_⟩
    unfold State.short at h2 ⊢
    rwa [State.consumed_rd_len, State.consumed_rd_pos, ← Nat.add_assoc] at h2
  refine ⟨_, by rw [exec_ledStates_parse hsel hok, readLedsub_of_carries _ hword,
    allLeds_parseLedEntry (s := u) hn ⟨rfl, rfl⟩ hok hb hentries hstop', outcome_ok],
    fun i hi hil => ?entry, fun a ha => ?rest, ?frame⟩
  case entry => exact (readBytes_patch_ledWrites hwf hb hi).trans (if_pos hil)
  case rest => exact read_patch_ledWrites_outside hwf hb ha
  case frame =>
    rw [← hlen, State.consumed, ← Nat.add_assoc]
    rfl

/-- Settles O25: the writes are those of the defaults' entries, and the sub-submask is the only thing
read. -/
theorem ledStatesResetAndWrite : Obligations.LedStatesResetAndWrite := by
  intro s hsel
  refine ⟨fun l hwf hdef hbytes hparse => ?reset, fun hshort => ⟨?resetShort, fun hok => ?parseShort⟩,
    fun hroom => ?write⟩
  case reset =>
    have hb := fitsLeds_led s.params hdef
    let u := s.walked ⟨le2 l, [], some l⟩
    refine ⟨_, by rw [exec_ledStates_reset hsel, readLedsub_of_carries _ ⟨hparse, hbytes⟩,
      allLeds_resetLedEntry (s := u) ⟨rfl, rfl⟩ hparse, outcome_ok],
      fun i hi hil => ?entry, fun a ha => ?rest, rfl⟩
    case entry => exact (readBytes_patch_ledWrites hwf hb hi).trans (if_pos hil)
    case rest => exact read_patch_ledWrites_outside hwf hb ha
  case resetShort => rw [exec_ledStates_reset hsel, readLedsub_short _ hshort, outcome_ok]
  case parseShort => rw [exec_ledStates_parse hsel hok, readLedsub_short _ hshort, outcome_ok]
  case write => rw [← SubField.instr, exec_sub, subRow, writeField_eq _ s hroom, outcome_ok]

/-! ### The commit paths of the partial operations (R243, R244) -/

theorem partialOutcome_of_committed {t : State} {op : CmdOp} {r : List Byte} (hok : t.disp.ok = true)
    (hr : t.wcfgRecord = r) (hvalid : t.params.configValid r = true) (hstore : t.env.storeAnswer = .ok) :
    t.partialOutcome op = (t.committed r).ackOp op := by
  rw [State.partialOutcome, hok, hr, hvalid, hstore]
  rfl

theorem State.eq_of_fields {s t : State} (hparams : s.params = t.params) (hctl : s.ctl = t.ctl)
    (hrx : s.rx = t.rx) (hrd : s.rd = t.rd) (hdisp : s.disp = t.disp) (hwr : s.wr = t.wr)
    (htel : s.tel = t.tel) (henv : s.env = t.env) (hout : s.out = t.out)
    (hstimuli : s.stimuli = t.stimuli) : s = t := by
  cases s
  cases t
  simp_all

/-- The state in which the walk of a partial operation with R82's tuple starts: its slot, its submask
taken, the persisted record in WCFG. -/
def State.partialStart (s : State) (op : CmdOp) (sub : Half) : State :=
  ((((s.setSeq op.seq).consumed 2).setSub sub).record .storageRead).wroteWcfg 0 s.env.persist

@[simp] theorem partialStart_params (s : State) (op : CmdOp) (sub : Half) :
    (s.partialStart op sub).params = s.params := rfl
@[simp] theorem partialStart_ctl (s : State) (op : CmdOp) (sub : Half) :
    (s.partialStart op sub).ctl = s.ctl := rfl
@[simp] theorem partialStart_rx (s : State) (op : CmdOp) (sub : Half) :
    (s.partialStart op sub).rx = s.rx := rfl
@[simp] theorem partialStart_rd (s : State) (op : CmdOp) (sub : Half) :
    (s.partialStart op sub).rd = (s.consumed 2).rd := rfl
@[simp] theorem partialStart_disp (s : State) (op : CmdOp) (sub : Half) :
    (s.partialStart op sub).disp = { s.disp with
      seq := op.seq, sub := sub, wcfg := s.disp.wcfg.writeBytes 0 s.env.persist } := rfl
@[simp] theorem partialStart_wr (s : State) (op : CmdOp) (sub : Half) :
    (s.partialStart op sub).wr = s.wr := rfl
@[simp] theorem partialStart_tel (s : State) (op : CmdOp) (sub : Half) :
    (s.partialStart op sub).tel = s.tel := rfl
@[simp] theorem partialStart_env (s : State) (op : CmdOp) (sub : Half) :
    (s.partialStart op sub).env = s.env := rfl
@[simp] theorem partialStart_out (s : State) (op : CmdOp) (sub : Half) :
    (s.partialStart op sub).out = { s.out with trace := s.out.trace ++ [.storageRead] } := rfl
@[simp] theorem partialStart_stimuli (s : State) (op : CmdOp) (sub : Half) :
    (s.partialStart op sub).stimuli = s.stimuli := rfl

theorem carries_partialStart {s : State} {bs : List Byte} (h : (s.consumed 2).carries bs) (op : CmdOp)
    (sub : Half) : (s.partialStart op sub).carries bs := by
  unfold State.carries State.canParse State.nextBytes at *
  rwa [partialStart_params, partialStart_rd]

theorem partialBase_eq_partialStart {s : State} {op : CmdOp} (hr82 : s.usesR82 op)
    (hpay : defaultPayload s.params op = [.u16]) (sub : Half) :
    s.partialBase op sub = s.partialStart op sub := by
  have hsize : s.tupleBytes op = 2 := by rw [State.tupleBytes, hr82, hpay]; rfl
  rw [State.partialBase, State.took, hsize, State.partialStart]

/-- The state that the walk `x` of a partial operation leaves (R176, R177). -/
def State.partialWalked (s : State) (op : CmdOp) (sub : Half) (x : Walk) : State :=
  (((s.partialStart op sub).setSub sub).setOk true).walked x

/-- The state after the walk `x` of a partial operation whose record `r` is committed (R243, R244). -/
def State.partialCommitted (s : State) (op : CmdOp) (sub : Half) (x : Walk) (r : List Byte) : State :=
  ((s.partialWalked op sub x).committed r).ackOp op

theorem partialWalked_wcfg (s : State) (op : CmdOp) (sub : Half) (x : Walk) :
    (s.partialWalked op sub x).disp.wcfg =
      (s.disp.wcfg.writeBytes 0 s.env.persist).patch x.writes := by
  simp [State.partialWalked]

@[simp] theorem partialWalked_params (s : State) (op : CmdOp) (sub : Half) (x : Walk) :
    (s.partialWalked op sub x).params = s.params := by simp [State.partialWalked]

@[simp] theorem partialWalked_env (s : State) (op : CmdOp) (sub : Half) (x : Walk) :
    (s.partialWalked op sub x).env = s.env := by simp [State.partialWalked]

@[simp] theorem partialWalked_ok (s : State) (op : CmdOp) (sub : Half) (x : Walk) :
    (s.partialWalked op sub x).disp.ok = true := by simp [State.partialWalked]

theorem partialCommitted_env {s : State} (h : s.env.storeAnswer = .ok) (op : CmdOp) (sub : Half)
    (x : Walk) (r : List Byte) :
    (s.partialCommitted op sub x r).env = { s.env with
      persist := r, liveCfg := r, storeAnswers := s.env.storeAnswers.tail } := by
  simp [State.partialCommitted, State.partialWalked, h, StoreAnswer.after]

theorem partialCommitted_out {s : State} (h : s.env.storeAnswer = .ok) (op : CmdOp) (sub : Half)
    (x : Walk) (r : List Byte) :
    (s.partialCommitted op sub x r).out = { s.out with
      trace := s.out.trace ++ [.storageRead, .applyConfig r, .storageWrite r true] } := by
  simp [State.partialCommitted, State.partialWalked, h, StoreAnswer.isOk]

@[simp] theorem partialCommitted_wcfg (s : State) (op : CmdOp) (sub : Half) (x : Walk) (r : List Byte) :
    (s.partialCommitted op sub x r).disp.wcfg = (s.partialWalked op sub x).disp.wcfg := rfl

theorem partialCommitted_wcfgRecord (s : State) (op : CmdOp) (sub : Half) (x : Walk) (r : List Byte) :
    (s.partialCommitted op sub x r).wcfgRecord = (s.partialWalked op sub x).wcfgRecord := by
  simp only [State.wcfgRecord, State.partialCommitted, State.ackOp_wcfg, State.ackOp_params,
    committed_disp, committed_params]

theorem partialCommitted_disp {s : State} {op : CmdOp} {sub ledsub : Half} {x : Walk} {r : List Byte}
    (hled : x.ledsub = walkLedsub s.params sub ledsub) :
    (s.partialCommitted op sub x r).disp = { s.disp with
      ack := s.disp.ack ||| s.params.cmdMask op, seq := op.seq, sub := sub,
      ledsub := if sub.getLsbD (s.params.subBitOf .ledStates) then ledsub else s.disp.ledsub,
      ok := true, wcfg := (s.partialCommitted op sub x r).disp.wcfg } := by
  rw [← walkLedsub_getD, ← hled, partialCommitted_wcfg, partialWalked_wcfg]
  simp [State.partialCommitted, State.partialWalked, State.ackOp, State.setOk, State.setSub]

theorem partialCommitted_eq (s : State) (op : CmdOp) (sub : Half) (x : Walk) (r : List Byte) :
    s.partialCommitted op sub x r = { s.consumed (le2 sub ++ x.taken).length with
      disp := (s.partialCommitted op sub x r).disp, env := (s.partialCommitted op sub x r).env,
      out := (s.partialCommitted op sub x r).out } := by
  have hrd : (s.partialCommitted op sub x r).rd = (s.consumed (le2 sub ++ x.taken).length).rd := by
    simp [State.partialCommitted, State.partialWalked, State.consumed, Nat.add_assoc]
  refine State.eq_of_fields ?_ ?_ ?_ hrd rfl ?_ ?_ rfl rfl ?_ <;>
    simp [State.partialCommitted, State.partialWalked]

section Commits

variable {op : CmdOp} {s : State} {rec : List Byte} {sub ledsub : Half} {x : Walk}

/-- The walk of a partial operation works on the persisted record. -/
theorem wcfgRecord_partialWalked (hwf : s.disp.wcfg.wf = true)
    (hpersist : s.env.persist.length = s.params.cfgTotal) (hrec : rec.length = s.params.cfgTotal)
    (hx : x.writes = recordWrites s.params rec sub ledsub) :
    (s.partialWalked op sub x).wcfgRecord = s.params.mergePartial s.env.persist rec sub ledsub := by
  have hload := Memory.readBytes_writeBytes s.disp.wcfg hwf 0 s.env.persist
  rw [hpersist] at hload
  rw [State.wcfgRecord, partialWalked_wcfg, partialWalked_params, hx,
    readBytes_patch_eq_mergePartial (Memory.wf_writeBytes _ _ _ hwf) hrec, hload]

theorem read_partialCommitted_of_ge (hwf : s.disp.wcfg.wf = true)
    (hpersist : s.env.persist.length = s.params.cfgTotal)
    (hx : x.writes = recordWrites s.params rec sub ledsub) {a : Nat} (ha : s.params.cfgTotal ≤ a)
    (r : List Byte) : (s.partialCommitted op sub x r).disp.wcfg.read a = s.disp.wcfg.read a := by
  rw [partialCommitted_wcfg, partialWalked_wcfg, hx,
    read_patch_recordWrites_of_ge (Memory.wf_writeBytes _ _ _ hwf) ha,
    Memory.read_writeBytes s.env.persist s.disp.wcfg hwf, if_neg (by omega)]

/-- R243, R244: a partial operation whose payload carries its submask and the bytes of its walk, which
writes the selected parts of `rec`, commits the merged record. -/
theorem exec_partialOperation_committed {walk : Half → State → Res State}
    (hpay : defaultPayload s.params op = [.u16])
    (hact : ∀ v, act op [.u16 v] = partialOperation op walk v)
    (hwalk : ∀ u : State, u.params = s.params → u.carries x.taken →
      walk sub u = .ok (((u.setSub sub).setOk true).walked x))
    (hx : x.writes = recordWrites s.params rec sub ledsub) (hwf : s.disp.wcfg.wf = true)
    (hpersist : s.env.persist.length = s.params.cfgTotal) (hrec : rec.length = s.params.cfgTotal)
    (hr82 : s.usesR82 op) (hsel : s.selected op = true) (hc : s.carries (le2 sub ++ x.taken))
    (hvalid : s.params.configValid (s.params.mergePartial s.env.persist rec sub ledsub) = true)
    (hstore : s.env.storeAnswer = .ok) :
    exec op.instr s = .next (s.partialCommitted op sub x
      (s.params.mergePartial s.env.persist rec sub ledsub)) := by
  obtain ⟨hword, hrest⟩ := hc.of_append
  have hstart := partialBase_eq_partialStart hr82 hpay sub
  have htook : s.took op = (s.setSeq op.seq).consumed 2 := by
    rw [State.took, State.tupleBytes, hr82, hpay]
    rfl
  rw [le2_length] at hrest
  have hstartc : (s.partialStart op sub).carries x.taken := carries_partialStart hrest op sub
  have hrun : walk sub (s.partialBase op sub) = .ok (s.partialWalked op sub x) := by
    rw [hstart]
    exact hwalk _ (partialStart_params ..) hstartc
  have hpart := partialOperation_eq (op := op) hpersist hrun
  rw [htook] at hpart
  have hout : (s.partialWalked op sub x).partialOutcome op = s.partialCommitted op sub x
      (s.params.mergePartial s.env.persist rec sub ledsub) :=
    partialOutcome_of_committed (partialWalked_ok ..) (wcfgRecord_partialWalked hwf hpersist hrec hx)
      (by rwa [partialWalked_params]) (by rwa [partialWalked_env])
  rw [exec_cmd_of_submask hpay hact hr82 hsel hword.1 hword.2, hpart, hout, outcome_ok]

/-- What R243 and R244 ask of the state after a commit of the merged record. -/
theorem partialCommitted_spec {words : List Byte} (hwords : words = le2 sub ++ x.taken)
    (hled : x.ledsub = walkLedsub s.params sub ledsub)
    (hx : x.writes = recordWrites s.params rec sub ledsub) (hwf : s.disp.wcfg.wf = true)
    (hpersist : s.env.persist.length = s.params.cfgTotal) (hrec : rec.length = s.params.cfgTotal)
    (hstore : s.env.storeAnswer = .ok) :
    let r := s.params.mergePartial s.env.persist rec sub ledsub
    let t := s.partialCommitted op sub x r
    t.env = { s.env with persist := r, liveCfg := r, storeAnswers := s.env.storeAnswers.tail } ∧
      t.out = { s.out with
        trace := s.out.trace ++ [.storageRead, .applyConfig r, .storageWrite r true] } ∧
      t.disp = { s.disp with
        ack := s.disp.ack ||| s.params.cmdMask op, seq := op.seq, sub := sub,
        ledsub := if sub.getLsbD (s.params.subBitOf .ledStates) then ledsub else s.disp.ledsub,
        ok := true, wcfg := t.disp.wcfg } ∧
      t.wcfgRecord = r ∧
      (∀ a, s.params.cfgTotal ≤ a → t.disp.wcfg.read a = s.disp.wcfg.read a) ∧
      t = { s.consumed words.length with disp := t.disp, env := t.env, out := t.out } := by
  subst hwords
  exact ⟨partialCommitted_env hstore .., partialCommitted_out hstore .., partialCommitted_disp hled,
    (partialCommitted_wcfgRecord ..).trans (wcfgRecord_partialWalked hwf hpersist hrec hx),
    fun a ha => read_partialCommitted_of_ge hwf hpersist hx ha _, partialCommitted_eq ..⟩

end Commits

/-- Settles O34: the merged record is the persisted one with the bytes of the payload in their places. -/
theorem setPartialEepromDataCommits : Obligations.SetPartialEepromDataCommits := by
  intro s rec sub ledsub hwf hpersist hrec hr82 hsel hparse hbytes hvalid hstore
  rw [← partialLayout_length s.params hrec] at hparse hbytes ⊢
  refine ⟨_, exec_partialOperation_committed (op := .setPartialEepromData)
      (x := parseWalk s.params rec sub ledsub) rfl act_setPartialEepromData (fun u hu hc => ?_)
      rfl hwf hpersist hrec hr82 hsel ⟨hparse, hbytes⟩ hvalid hstore,
    partialCommitted_spec rfl rfl rfl hwf hpersist hrec hstore⟩
  rw [← hu] at hrec hc ⊢
  exact parsePartial_walked hrec hc

/-- Settles O35: WF8 gives the defaults the length of a record. -/
theorem reinitPartialEepromDataCommits : Obligations.ReinitPartialEepromDataCommits := by
  intro s sub ledsub hwf hp hpersist hr82 hsel hparse hbytes hvalid hstore
  have hdef := (Params.wf_default hp).1
  refine ⟨_, exec_partialOperation_committed (op := .reinitPartialEepromData)
      (x := resetWalk s.params sub ledsub) rfl act_reinitPartialEepromData (fun u hu hc => ?_)
      rfl hwf hpersist hdef hr82 hsel ⟨hparse, hbytes⟩ hvalid hstore,
    partialCommitted_spec rfl rfl rfl hwf hpersist hdef hstore⟩
  rw [← hu] at hc ⊢
  exact resetPartial_walked hc

end Sys2Proof.Machine
end

section
/-! The rows of the dispatcher once more (44_dispatcher.md): a slot by its mask bit and its tuple (R13,
R205), the motor overrides (R211), the recording request with the log's contract (R218, R332), the header
rows (R79), `RESET` (R350); and STATE rows of any table (R88, R89). -/

namespace Sys2Proof.Machine

/-! ### Slots (R13, R200, R205) -/

theorem exec_cmd_of_clear {op : CmdOp} {s : State} (h : s.selected op = false) :
    exec op.instr s = .next (s.setSeq op.seq) := by
  rw [exec_cmd, slotOf_clear h, outcome_ok]

theorem exec_cmd_of_canTake {op : CmdOp} {s : State} (h : s.selected op = true) (hc : s.canTake op) :
    exec op.instr s = outcome (act op (s.operands op) (s.took op)) := by
  rw [exec_cmd, slotOf_act h hc]

theorem opPayload_of_lookup {p : Params} {op : CmdOp} {ts : List FieldType}
    (h : p.opPayload.lookup op = some ts) : opPayload p op = ts := by
  rw [opPayload, h, Option.getD_some]

/-- Settles O26: the mask bit and the bytes of the tuple decide, whatever tuple it is. -/
theorem slotsWithAndWithoutEffect : Obligations.SlotsWithAndWithoutEffect := fun _ _ =>
  ⟨exec_cmd_of_clear, exec_cmd_of_short, exec_cmd_of_canTake, fun _ => opPayload_of_lookup, rfl⟩

/-! ### The motor overrides (R211, R331) -/

theorem act_motor (i : Fin 8) (v : Half) :
    act (.motor i) [.u16 v] = simpleOp (.motor i) (setMotorOut i v) := rfl

theorem cmdBitOf_motor (i : Fin 8) : Config.params.cmdBitOf (.motor i) = 5 + i.val := by
  fin_cases i <;> rfl

theorem setMotorOut_motorOut_getElem (s : State) (i j : Fin 8) (v : Half) :
    (setMotorOut i v s).env.live.motorOut[j] = if j = i then v else s.env.live.motorOut[j] := by
  have h : (setMotorOut i v s).env.live.motorOut = s.env.live.motorOut.set i v := rfl
  simp only [h, Fin.getElem_fin, Vector.getElem_set, Fin.ext_iff, eq_comm]

/-- Settles O29: each motor has a slot, a mask bit and an entry of its own. -/
theorem motorOverride : Obligations.MotorOverride := by
  intro s i hr82
  refine ⟨fun hsel hparse => ?written, fun hsel hshort => ?short, cmdBitOf_motor i,
    fun v j => setMotorOut_motorOut_getElem s i j v, fun _ => rfl⟩
  case written =>
    rw [exec_cmd_of_field (op := .motor i) (t := .u16) rfl hr82 hsel hparse, decodeField, act_motor]
    rfl
  case short => exact exec_cmd_of_field_short (op := .motor i) (t := .u16) rfl hr82 hsel hshort

/-! ### The recording request (R218) and the log's lock (R332) -/

theorem act_setCardRecording (v : Byte) :
    act .setCardRecording [.u8 v] = simpleOp .setCardRecording (recordingRequest v) := rfl

theorem recordingRequest_of_open {flags : Byte} (h : flags.getLsbD 0 = true) (s : State) :
    recordingRequest flags s = logSetLock (flags.getLsbD 1) (logOpen (logSetLock false s)) := if_pos h

theorem recordingRequest_of_close {flags : Byte} (h : flags.getLsbD 0 = false) (s : State) :
    recordingRequest flags s = logSetLock (flags.getLsbD 1) (logClose (logSetLock false s)) := by
  rw [recordingRequest, h, if_neg Bool.false_ne_true]

theorem exec_setCardRecording_of_canParse {s : State} (hr82 : s.usesR82 .setCardRecording)
    (hsel : s.selected .setCardRecording = true) (hparse : s.canParse 1) :
    exec .setCardRecording s = .next ((recordingRequest (byte (s.nextBytes 1))
      ((s.setSeq 18).consumed 1)).ackOp .setCardRecording) :=
  (exec_cmd_of_field (op := .setCardRecording) (t := .u8) rfl hr82 hsel hparse).trans
    (congrArg (fun f => outcome (f ((s.setSeq 18).consumed 1))) (act_setCardRecording _))

/-- What a stimulus of the collaborators may change: their contracts hold of the new state, and the lock
they were asked for last is the same. -/
theorem step_collaborators {s t : State} {e : Env} {rest : List Stimulus}
    (hst : s.stimuli = .collaborators e :: rest) (h : step s = .next t) :
    s.env.mayBecome e s.params = true ∧ t = { s.advance rest with env := e } := by
  simp only [step, hst] at h
  split at h
  · split at h
    · next hmay => exact ⟨hmay, by cases h; rfl⟩
    · cases h
  · cases h

/-- R332: the collaborators keep the log as the last `setLock` asked. -/
theorem logLocked_of_mayBecome {e e' : Env} {p : Params} {b : Bool} (hlock : e.lockSet = some b)
    (h : e.mayBecome e' p = true) : e'.logLocked = b ∧ e'.lockSet = some b := by
  simp only [Env.mayBecome, Env.wf, Bool.and_eq_true, beq_iff_eq] at h
  obtain ⟨⟨⟨-, hkept⟩, -⟩, hset⟩ := h
  rw [hlock] at hset
  simp only [Env.lockKept, hset, beq_iff_eq] at hkept
  exact ⟨hkept, hset⟩

/-- Settles O30: three transactions in one order, of which only the middle one depends on bit 0; each is
one event and one change of the log's state. -/
theorem setCardRecording : Obligations.SetCardRecording := by
  intro s
  refine ⟨fun hr82 hsel => ⟨fun hparse hopen => ?opened, fun hparse hclose => ?closed,
    fun hshort => ?short⟩, fun _ => rfl, fun b e rest t hlock hst hstep => ?kept, rfl, rfl, rfl⟩
  case opened => rw [exec_setCardRecording_of_canParse hr82 hsel hparse, recordingRequest_of_open hopen]
  case closed => rw [exec_setCardRecording_of_canParse hr82 hsel hparse, recordingRequest_of_close hclose]
  case short =>
    exact exec_cmd_of_field_short (op := .setCardRecording) (t := .u8) rfl hr82 hsel hshort
  case kept =>
    obtain ⟨hmay, rfl⟩ := step_collaborators hst hstep
    exact logLocked_of_mayBecome hlock hmay

/-! ### Header rows, and `PROCESS` with nothing queued (R79, R200, R201) -/

theorem exec_typeCommand (s : State) :
    exec .typeCommand s = outcome (whenType s.params.typeCommand acceptCommand s) := rfl

theorem exec_typeState (s : State) :
    exec .typeState s = outcome (whenType s.params.typeState (fun t => .ok (ignoreFrame t)) s) := rfl

theorem exec_typeResponse (s : State) :
    exec .typeResponse s =
      outcome (whenType s.params.typeResponse (fun t => .ok (ignoreFrame t)) s) := rfl

theorem exec_process (s : State) : exec .process s = outcome (processHead s) := rfl

theorem whenType_of_eq {tag : Word} {s : State} (h : s.disp.type = tag) (body : State → Res State) :
    whenType tag body s = body s := if_pos h

theorem whenType_of_ne {tag : Word} {s : State} (h : s.disp.type ≠ tag) (body : State → Res State) :
    whenType tag body s = .ok s := if_neg h

theorem processHead_of_nil {s : State} (h : s.rx.queue = []) : processHead s = .ok s := by
  simp only [processHead, h]

/-- Settles O41. -/
theorem otherTypesAreIgnored : Obligations.OtherTypesAreIgnored := by
  intro s
  refine ⟨fun h => ?state, fun h => ?response, fun h => ?notCommand, fun h => ?notState,
    fun h => ?notResponse, fun h => ?nothing⟩
  case state => rw [exec_typeState, whenType_of_eq h]; rfl
  case response => rw [exec_typeResponse, whenType_of_eq h]; rfl
  case notCommand => rw [exec_typeCommand, whenType_of_ne h, outcome_ok]
  case notState => rw [exec_typeState, whenType_of_ne h, outcome_ok]
  case notResponse => rw [exec_typeResponse, whenType_of_ne h, outcome_ok]
  case nothing => rw [exec_process, processHead_of_nil h, outcome_ok]

/-! ### `RESET` (R30, R350) -/

theorem exec_reset (s : State) : exec .reset s = .next (resetBlock s) := rfl

/-- Settles O54. -/
theorem resetRow : Obligations.ResetRow := exec_reset

/-- Settles O58: the parameters of TEST_PROFILE meet R5, every buffer and the queue are empty, and both
records have `CFG_TOTAL` bytes. -/
theorem resetHasInvariant : Obligations.ResetHasInvariant where
  params := by decide
  memory := reset_memoryWf
  reader := ⟨le_rfl, Nat.zero_le _⟩
  writer := ⟨le_rfl, Nat.zero_le _⟩
  queue := fun _ hq => absurd hq List.not_mem_nil
  acc := List.not_mem_nil
  env := by unfold State.envOk; decide
  ack := fun _ => rfl

/-! ### STATE rows of any table (R88, R89, R146, R264) -/

theorem stateRow_of_not_selectsRow {f : TelField} {s : State} (h : ∀ r, ¬ s.selectsRow f r) :
    stateRow f s = .ok s := by
  unfold stateRow
  split
  · next r hrow =>
    have hclear : s.effSelected r.bit ≠ true := fun hsel => h r ⟨hrow, hsel⟩
    rw [emitRow, if_neg hclear]
  · rfl

/-- A selected row that fits appends its bytes, whatever its width. -/
theorem exec_tel_of_room {f : TelField} {r : TelemetryRow} {s : State} (h : s.selectsRow f r)
    (hroom : s.room r.size) : exec f.instr s = .next (s.appended (s.tel.rowBytes r)) := by
  rw [exec_tel, stateRow_of_rowOf h.1, emitRow_of_selected h.2 hroom, outcome_ok]

theorem exec_tel_of_full {f : TelField} {r : TelemetryRow} {s : State} (h : s.selectsRow f r)
    (hfull : s.wr.cap < s.wr.len + r.size) :
    exec f.instr s = .next { s with wr := { s.wr with ovf := true } } := by
  rw [exec_tel, stateRow_of_rowOf h.1, emitRow, if_pos h.2, put_full (by rwa [rowBytes_length]),
    outcome_ok]

/-- A row of another width than R88's appends the snapshot's bytes of its own width. -/
theorem rowBytes_of_size_ne {t : Telem} {f : TelField} {r : TelemetryRow} (hname : r.name = .field f)
    (hsize : r.size ≠ f.size) (hf : f ≠ .micros) : t.rowBytes r = t.snap.otherBytes r := by
  simp only [Telem.rowBytes, hname, if_neg hsize, if_neg hf]

theorem rowBytes_of_other {t : Telem} {r : TelemetryRow} {name : String} (hname : r.name = .other name) :
    t.rowBytes r = t.snap.otherBytes r := by
  simp only [Telem.rowBytes, hname]

/-- Settles O51: a row appends as many bytes as its size column says, so its size alone decides whether it
fits. -/
theorem telemetryRowsOfAnyTable : Obligations.TelemetryRowsOfAnyTable := by
  intro s f
  refine ⟨fun h => ?none, fun r h hfull => exec_tel_of_full h hfull,
    fun r bs h hroom hsize hf hbs hlen => ?other, fun r h hroom _ _ =>
      ⟨_, rowBytes_length s.tel r, exec_tel_of_room h hroom⟩, fun r name bs hname hbs hlen => ?named⟩
  case none => rw [exec_tel, stateRow_of_not_selectsRow h, outcome_ok]
  case other =>
    rw [exec_tel_of_room h hroom, rowBytes_of_size_ne (name_of_rowOf h.1) hsize hf, otherBytes_eq hbs hlen]
  case named => rw [rowBytes_of_other hname, otherBytes_eq hbs hlen]

end Sys2Proof.Machine
end

section
/-! What a row can do to the machine: the actions that every row but `RX_BYTE`, `PROCESS` and `RESET` is
made of, and what each action keeps (R8, R11, R14, R56, R59). A property of all rows is then one case per
action. -/

namespace Sys2Proof.Machine

/-! ### The actions -/

/-- What only some rows may do: write a control register (R17 to R19), build or send a frame (R146 to
R148), write a telemetry register (R261), commit a record that it did not validate (the row `Commit`). -/
inductive Part where
  | control | frame | telemetry | unvalidated

/-- An event that is neither a commit nor an overflow. -/
def Event.plain : Event → Bool
  | .raised .overflow _ | .applyConfig _ | .storageWrite _ _ => false
  | _ => true

/-- One action of a row that has the parts `may`. -/
inductive Action (may : Set Part) : State → State → Prop
  /-- A working register of the dispatcher or the result register is written. -/
  | registers {s : State} (d : Disp) (r : OpResult) (htype : d.type = s.disp.type)
      (hm : d.m = s.disp.m) (hack : d.ack = s.disp.ack) (hwcfg : d.wcfg = s.disp.wcfg) :
      Action may s { s with disp := d, out := { s.out with result := r } }
  /-- An event is recorded. -/
  | event {s : State} (e : Event) (h : e.plain = true) : Action may s (s.record e)
  /-- Bytes that are there are taken. -/
  | took {s : State} (n : Nat) (h : ¬ s.short n) : Action may s (s.consumed n)
  /-- WCFG is written. -/
  | wrote {s : State} (off : Nat) (bs : List Byte) : Action may s (s.wroteWcfg off bs)
  /-- `ack` is cleared. -/
  | clearedAck {s : State} : Action may s { s with disp := { s.disp with ack := 0#32 } }
  /-- The ack bit of a selected operation is set. -/
  | acked {s : State} (op : CmdOp) (hsel : s.selected op = true) (hne : op ≠ .reqResponse) :
      Action may s (s.ackOp op)
  /-- A record is committed from the working copy `m`. -/
  | committed {s : State} (m : Memory) (r : List Byte) (hm : s.disp.wcfg.wf = true → m.wf = true)
      (hlen : r.length = s.params.cfgTotal)
      (hvalid : .unvalidated ∉ may → s.Inv → s.params.configValid r = true) :
      Action may s (({ s with disp := { s.disp with wcfg := m } } : State).committed r)
  /-- The collaborators change, but for the two records. -/
  | collaborated {s : State} (e : Env) (hpersist : e.persist = s.env.persist)
      (hlive : e.liveCfg = s.env.liveCfg) (hwf : ∀ p, s.env.wf p = true → e.wf p = true) :
      Action may s { s with env := e }
  /-- A control register is written. -/
  | control {s : State} (h : .control ∈ may) (c : Control) : Action may s { s with ctl := c }
  /-- The Field Writer's registers or WBUF are written. -/
  | writer {s : State} (h : .frame ∈ may) (w : Writer) (hbuf : s.wr.buf.wf = true → w.buf.wf = true)
      (hbound : s.writerBounded → w.len ≤ w.cap ∧ w.len ≤ s.params.capLarge) :
      Action may s { s with wr := w }
  /-- An encoded frame is handed over. -/
  | sent {s : State} (h : .frame ∈ may) (d : Dest) (bs : List Byte) : Action may s (deliver d bs s)
  /-- A frame is abandoned. -/
  | overflowed {s : State} (h : .frame ∈ may) (w : Site) : Action may s (s.raise .overflow w)
  /-- A telemetry register is written. -/
  | telemetry {s : State} (h : .telemetry ∈ may) (t : Telem) : Action may s { s with tel := t }

/-- Actions one after the other. -/
abbrev Runs (may : Set Part) : State → State → Prop := Relation.ReflTransGen (Action may)

theorem Action.mono {may may' : Set Part} (hsub : may ⊆ may') {s t : State} (h : Action may s t) :
    Action may' s t := by
  cases h with
  | registers d r h1 h2 h3 h4 => exact .registers d r h1 h2 h3 h4
  | event e h => exact .event e h
  | took n h => exact .took n h
  | wrote off bs => exact .wrote off bs
  | clearedAck => exact .clearedAck
  | acked op hsel hne => exact .acked op hsel hne
  | committed m r hm hlen hvalid => exact .committed m r hm hlen fun hn => hvalid fun h => hn (hsub h)
  | collaborated e h1 h2 h3 => exact .collaborated e h1 h2 h3
  | control h c => exact .control (hsub h) c
  | writer h w h1 h2 => exact .writer (hsub h) w h1 h2
  | sent h d bs => exact .sent (hsub h) d bs
  | overflowed h w => exact .overflowed (hsub h) w
  | telemetry h t => exact .telemetry (hsub h) t

theorem Runs.mono {may may' : Set Part} (hsub : may ⊆ may') {s t : State} (h : Runs may s t) :
    Runs may' s t := Relation.ReflTransGen.mono (fun _ _ => Action.mono hsub) _ _ h

/-- A relation that holds of every action, of doing nothing, and of one thing after another, holds of
what the actions make of a state with a property that they keep. -/
theorem Runs.induct {may : Set Part} {P : State → Prop} {R : State → State → Prop}
    (hP : ∀ {s t}, Action may s t → P s → P t) (hrefl : ∀ s, R s s)
    (htrans : ∀ {s t u}, R s t → R t u → R s u) (hact : ∀ {s t}, Action may s t → P s → R s t)
    {s t : State} (h : Runs may s t) (hs : P s) : R s t ∧ P t := by
  induction h with
  | refl => exact ⟨hrefl s, hs⟩
  | tail _ ha ih => exact ⟨htrans ih.1 (hact ha ih.2), hP ha ih.2⟩

/-! ### What no action changes -/

/-- The parts of the state that a row with the parts `may` leaves alone (R59), and the cursor, which it
never sets back. -/
structure Framed (may : Set Part) (s t : State) : Prop where
  params : t.params = s.params
  stimuli : t.stimuli = s.stimuli
  rx : t.rx = s.rx
  buf : t.rd.buf = s.rd.buf
  len : t.rd.len = s.rd.len
  pos : s.rd.pos ≤ t.rd.pos
  type : t.disp.type = s.disp.type
  m : t.disp.m = s.disp.m
  ctl : .control ∉ may → t.ctl = s.ctl
  wr : .frame ∉ may → t.wr = s.wr
  tel : .telemetry ∉ may → t.tel = s.tel

theorem Framed.refl (may : Set Part) (s : State) : Framed may s s :=
  ⟨rfl, rfl, rfl, rfl, rfl, le_rfl, rfl, rfl, fun _ => rfl, fun _ => rfl, fun _ => rfl⟩

theorem Framed.trans {may : Set Part} {s t u : State} (h : Framed may s t) (h' : Framed may t u) :
    Framed may s u where
  params := h'.params.trans h.params
  stimuli := h'.stimuli.trans h.stimuli
  rx := h'.rx.trans h.rx
  buf := h'.buf.trans h.buf
  len := h'.len.trans h.len
  pos := h.pos.trans h'.pos
  type := h'.type.trans h.type
  m := h'.m.trans h.m
  ctl hn := (h'.ctl hn).trans (h.ctl hn)
  wr hn := (h'.wr hn).trans (h.wr hn)
  tel hn := (h'.tel hn).trans (h.tel hn)

theorem Action.framed {may : Set Part} {s t : State} (h : Action may s t) : Framed may s t := by
  have hr := Framed.refl may s
  cases h with
  | registers d r htype hm => exact { hr with type := htype, m := hm }
  | took n => exact { hr with pos := Nat.le_add_right .. }
  | control h c => exact { hr with ctl := fun hn => absurd h hn }
  | writer h w => exact { hr with wr := fun hn => absurd h hn }
  | sent h d bs => cases d <;> exact { hr with }
  | telemetry h x => exact { hr with tel := fun hn => absurd h hn }
  | _ => exact { hr with }

theorem Runs.framed {may : Set Part} {s t : State} (h : Runs may s t) : Framed may s t :=
  (h.induct (P := fun _ => True) (fun _ _ => trivial) (Framed.refl may) Framed.trans
    (fun ha _ => ha.framed) trivial).1

theorem Framed.selected {may : Set Part} {s t : State} (h : Framed may s t) (op : CmdOp) :
    t.selected op = s.selected op := by
  rw [State.selected, State.selected, h.m, h.params]

/-! ### The ack law (R14, R203) -/

theorem getLsbD_oneBit {b c : Nat} : (oneBit c).getLsbD b = true ↔ b = c ∧ b < 32 := by
  simp only [oneBit, BitVec.getLsbD_shiftLeft, BitVec.getLsbD_one, Bool.and_eq_true, decide_eq_true_eq,
    Bool.not_eq_true', decide_eq_false_iff_not]
  omega

theorem ackWithinMask_iff (d : Disp) :
    d.ackWithinMask ↔ ∀ b, d.ack.getLsbD b = true → d.m.getLsbD b = true := by
  constructor
  · intro h b hb
    have hlt := BitVec.lt_of_getLsbD hb
    have hzero := congrArg (·.getLsbD b) h
    simpa [hb, hlt] using hzero
  · intro h
    refine BitVec.eq_of_getLsbD_eq fun b hlt => ?_
    cases hb : d.ack.getLsbD b with
    | false => simp [hb]
    | true => simp [hb, h b hb]

theorem getLsbD_ackOp {s : State} {op : CmdOp} {b : Nat} :
    (s.ackOp op).disp.ack.getLsbD b = true ↔
      s.disp.ack.getLsbD b = true ∨ (b = s.params.cmdBitOf op ∧ b < 32) := by
  rw [State.ackOp_ack, BitVec.getLsbD_or, Bool.or_eq_true, Params.cmdMask, getLsbD_oneBit]

/-- R14: setting the ack bit of a selected operation stays within the mask. -/
theorem ackWithinMask_ackOp {s : State} {op : CmdOp} (hsel : s.selected op = true)
    (h : s.disp.ackWithinMask) : (s.ackOp op).disp.ackWithinMask := by
  rw [ackWithinMask_iff] at h ⊢
  intro b hb
  rcases getLsbD_ackOp.mp hb with hb | ⟨rfl, -⟩
  · exact h b hb
  · exact hsel

/-! ### The invariant -/

/-- R45: the invariant has the live system hold a whole record. -/
theorem State.Inv.liveCfg_length {s : State} (h : s.Inv) :
    s.env.liveCfg.length = s.params.cfgTotal := by
  have henv := h.env
  simp only [State.envOk, Env.wf, Bool.and_eq_true, beq_iff_eq] at henv
  obtain ⟨⟨⟨⟨-, hlive⟩, -⟩, -⟩, -⟩ := henv
  exact hlive

/-- R330: what the store holds after an answer has the length of a record. -/
theorem storeAnswer_after_length {e : Env} {p : Params} {r : List Byte} (h : e.wf p = true)
    (hr : r.length = p.cfgTotal) : (e.storeAnswer.after e.persist r).length = p.cfgTotal := by
  simp only [Env.wf, Bool.and_eq_true, beq_iff_eq] at h
  obtain ⟨⟨⟨⟨hpersist, -⟩, -⟩, -⟩, hanswers⟩ := h
  unfold Env.storeAnswer
  cases hl : e.storeAnswers with
  | nil => exact hr
  | cons a rest =>
    rw [hl, List.all_cons, Bool.and_eq_true] at hanswers
    cases a with
    | ok => exact hr
    | err after =>
      cases after with
      | none => exact hpersist
      | some x => simpa [StoreAnswer.after] using hanswers.1

/-- R179, R330, R331: a commit of a record of the right length keeps the contracts. -/
theorem Env.wf_committed {e : Env} {p : Params} {r : List Byte} (h : e.wf p = true)
    (hr : r.length = p.cfgTotal) :
    Env.wf { e with persist := e.storeAnswer.after e.persist r, liveCfg := r,
                    storeAnswers := e.storeAnswers.tail } p = true := by
  have hafter := storeAnswer_after_length h hr
  simp only [Env.wf, Bool.and_eq_true, beq_iff_eq] at h ⊢
  obtain ⟨⟨⟨⟨-, -⟩, hlive⟩, hlock⟩, hanswers⟩ := h
  refine ⟨⟨⟨⟨hafter, hr⟩, hlive⟩, hlock⟩, ?_⟩
  rw [List.all_eq_true] at hanswers ⊢
  exact fun a ha => hanswers a (List.mem_of_mem_tail ha)

/-- Every action keeps the invariant. -/
theorem Action.inv {may : Set Part} {s t : State} (ha : Action may s t) (h : s.Inv) : t.Inv := by
  obtain ⟨hrbuf, hwbuf, hwcfg⟩ := h.memory
  cases ha with
  | registers d r htype hm hack hd =>
    refine { h with memory := ⟨hrbuf, hwbuf, hd ▸ hwcfg⟩, ack := fun ht => ?_ }
    have := h.ack (htype ▸ ht)
    rwa [Disp.ackWithinMask, ← hack, ← hm] at this
  | event e => exact { h with }
  | took n hn =>
    obtain ⟨hpos, hlen⟩ := h.reader
    refine { h with reader := ⟨?_, hlen⟩ }
    unfold State.short at hn
    simp only [State.consumed_rd_pos, State.consumed_rd_len]
    omega
  | wrote off bs => exact { h with memory := ⟨hrbuf, hwbuf, Memory.wf_writeBytes _ _ _ hwcfg⟩ }
  | clearedAck => exact { h with ack := fun _ => BitVec.zero_and }
  | acked op hsel => exact { h with ack := fun ht => ackWithinMask_ackOp hsel (h.ack ht) }
  | committed m r hm hlen =>
    have henv : Env.wf _ s.params = true := Env.wf_committed h.env hlen
    exact { h with memory := ⟨hrbuf, hwbuf, hm hwcfg⟩, env := henv }
  | collaborated e _ _ hwf => exact { h with env := hwf s.params h.env }
  | control _ c => exact { h with }
  | writer _ w hbuf hbound =>
    exact { h with memory := ⟨hrbuf, hbuf hwbuf, hwcfg⟩, writer := hbound h.writer }
  | sent _ d bs => cases d <;> exact { h with }
  | overflowed _ w => exact { h with }
  | telemetry _ x => exact { h with }

theorem Runs.inv {may : Set Part} {s t : State} (hr : Runs may s t) (h : s.Inv) : t.Inv :=
  (hr.induct (R := fun _ _ => True) Action.inv (fun _ => trivial) (fun _ _ => trivial)
    (fun _ _ => trivial) h).2

/-! ### What is committed (R180) -/

/-- From `s` to `t` only valid records are committed, and the two records change by commits only. -/
def CommitsValid (s t : State) : Prop :=
  t.params = s.params ∧ ∃ evs, t.out.trace = s.out.trace ++ evs ∧
    (∀ r, .applyConfig r ∈ evs → s.params.configValid r = true) ∧
    (∀ r b, .storageWrite r b ∈ evs → s.params.configValid r = true) ∧
    ((∀ r, .applyConfig r ∉ evs) → t.env.liveCfg = s.env.liveCfg) ∧
    ((∀ r b, .storageWrite r b ∉ evs) → t.env.persist = s.env.persist)

/-- Nothing is committed where the two records stay and only plain events are recorded. -/
theorem CommitsValid.of_plain {s t : State} {evs : List Event} (hparams : t.params = s.params)
    (htrace : t.out.trace = s.out.trace ++ evs) (hplain : ∀ e ∈ evs, e.plain = true)
    (hlive : t.env.liveCfg = s.env.liveCfg) (hpersist : t.env.persist = s.env.persist) :
    CommitsValid s t :=
  ⟨hparams, evs, htrace, fun _ hr => (Bool.false_ne_true (hplain _ hr)).elim,
    fun _ _ hr => (Bool.false_ne_true (hplain _ hr)).elim, fun _ => hlive, fun _ => hpersist⟩

/-- Nothing is committed where neither the trace nor the two records change. -/
theorem CommitsValid.of_silent {s t : State} (hparams : t.params = s.params)
    (htrace : t.out.trace = s.out.trace) (hlive : t.env.liveCfg = s.env.liveCfg)
    (hpersist : t.env.persist = s.env.persist) : CommitsValid s t :=
  .of_plain (evs := []) hparams (by rw [htrace, List.append_nil]) (fun _ h => absurd h List.not_mem_nil)
    hlive hpersist

theorem CommitsValid.refl (s : State) : CommitsValid s s := .of_silent rfl rfl rfl rfl

theorem CommitsValid.trans {s t u : State} (h : CommitsValid s t) (h' : CommitsValid t u) :
    CommitsValid s u := by
  obtain ⟨hp, evs, htrace, happly, hwrite, hlive, hpersist⟩ := h
  obtain ⟨hp', evs', htrace', happly', hwrite', hlive', hpersist'⟩ := h'
  rw [hp] at happly' hwrite'
  refine ⟨hp'.trans hp, evs ++ evs', by rw [htrace', htrace, List.append_assoc], ?_, ?_, ?_, ?_⟩
  · exact fun r hr => (List.mem_append.mp hr).elim (happly r) (happly' r)
  · exact fun r b hr => (List.mem_append.mp hr).elim (hwrite r b) (hwrite' r b)
  · intro hn
    rw [hlive' fun r hr => hn r (List.mem_append_right _ hr),
      hlive fun r hr => hn r (List.mem_append_left _ hr)]
  · intro hn
    rw [hpersist' fun r b hr => hn r b (List.mem_append_right _ hr),
      hpersist fun r b hr => hn r b (List.mem_append_left _ hr)]

/-- A commit of a valid record. -/
theorem commitsValid_committed {s : State} {r : List Byte} (h : s.params.configValid r = true) :
    CommitsValid s (s.committed r) := by
  refine ⟨rfl, _, by rw [committed_out], fun x hx => ?_, fun x b hx => ?_, fun hn => ?_, fun hn => ?_⟩
  · simp only [List.mem_cons, Event.applyConfig.injEq, reduceCtorEq, List.not_mem_nil, or_false] at hx
    exact hx ▸ h
  · simp only [List.mem_cons, Event.storageWrite.injEq, reduceCtorEq, List.not_mem_nil, or_false,
      false_or] at hx
    exact hx.1 ▸ h
  · exact absurd List.mem_cons_self (hn r)
  · exact absurd (List.mem_cons_of_mem _ List.mem_cons_self) (hn r _)

theorem Action.commitsValid {may : Set Part} (hmay : .unvalidated ∉ may) {s t : State}
    (ha : Action may s t) (h : s.Inv) : CommitsValid s t := by
  cases ha with
  | event e he =>
    exact .of_plain (evs := [e]) rfl rfl (fun x hx => List.mem_singleton.mp hx ▸ he) rfl rfl
  | committed m r _ _ hvalid =>
    exact CommitsValid.trans (.of_silent rfl rfl rfl rfl) (commitsValid_committed (hvalid hmay h))
  | collaborated e hpersist hlive => exact .of_silent rfl rfl hlive hpersist
  | sent _ d bs =>
    cases d with
    | wire => exact .of_plain (evs := [.writeBytes bs]) rfl rfl (by simp [Event.plain]) rfl rfl
    | log => exact .of_plain (evs := [.logWrite bs]) rfl rfl (by simp [Event.plain]) rfl rfl
  | overflowed _ w =>
    refine ⟨rfl, [.raised .overflow w], rfl, fun r hr => ?_, fun r b hr => ?_, fun _ => rfl, fun _ => rfl⟩
    · simp at hr
    · simp at hr
  | _ => exact .of_silent rfl rfl rfl rfl

theorem Runs.commitsValid {may : Set Part} (hmay : .unvalidated ∉ may) {s t : State} (hr : Runs may s t)
    (h : s.Inv) : CommitsValid s t :=
  (hr.induct Action.inv CommitsValid.refl CommitsValid.trans (Action.commitsValid hmay) h).1

/-! ### Overflows (R149) -/

/-- From `s` to `t` no frame overflows. -/
def NoOverflow (s t : State) : Prop :=
  (s.wr.ovf = false → t.wr.ovf = false) ∧
    ∃ evs, t.out.trace = s.out.trace ++ evs ∧ ∀ w, .raised .overflow w ∉ evs

theorem NoOverflow.of_plain {s t : State} {evs : List Event} (htrace : t.out.trace = s.out.trace ++ evs)
    (hplain : ∀ e ∈ evs, e.plain = true) (hovf : s.wr.ovf = false → t.wr.ovf = false) : NoOverflow s t :=
  ⟨hovf, evs, htrace, fun _ hw => (Bool.false_ne_true (hplain _ hw)).elim⟩

theorem NoOverflow.of_silent {s t : State} (htrace : t.out.trace = s.out.trace)
    (hovf : s.wr.ovf = false → t.wr.ovf = false) : NoOverflow s t :=
  .of_plain (evs := []) (by rw [htrace, List.append_nil]) (fun _ h => absurd h List.not_mem_nil) hovf

theorem NoOverflow.refl (s : State) : NoOverflow s s := .of_silent rfl id

theorem NoOverflow.trans {s t u : State} (h : NoOverflow s t) (h' : NoOverflow t u) : NoOverflow s u := by
  obtain ⟨hovf, evs, htrace, hno⟩ := h
  obtain ⟨hovf', evs', htrace', hno'⟩ := h'
  exact ⟨hovf' ∘ hovf, evs ++ evs', by rw [htrace', htrace, List.append_assoc],
    fun w hw => (List.mem_append.mp hw).elim (hno w) (hno' w)⟩

/-- A row that builds no frame overflows none. -/
theorem Action.noOverflow {may : Set Part} (hmay : .frame ∉ may) {s t : State} (ha : Action may s t) :
    NoOverflow s t := by
  cases ha with
  | event e he => exact .of_plain (evs := [e]) rfl (fun x hx => List.mem_singleton.mp hx ▸ he) id
  | committed m r =>
    refine ⟨id, _, by rw [committed_out], fun w hw => ?_⟩
    simp at hw
  | writer h | sent h | overflowed h => exact absurd h hmay
  | _ => exact .of_silent rfl id

theorem Runs.noOverflow {may : Set Part} (hmay : .frame ∉ may) {s t : State} (hr : Runs may s t) :
    NoOverflow s t :=
  (hr.induct (P := fun _ => True) (fun _ _ => trivial) NoOverflow.refl NoOverflow.trans
    (fun ha _ => ha.noOverflow hmay) trivial).1

/-! ### The ack bits (R14, R248) -/

/-- Every ack bit is that of an operation that the mask selects, and not that of `REQ_RESPONSE`. -/
def State.ackRequested (s : State) : Prop :=
  ∀ b, s.disp.ack.getLsbD b = true →
    ∃ op, op ≠ .reqResponse ∧ s.params.cmdBitOf op = b ∧ s.selected op = true

theorem Action.ackRequested {may : Set Part} {s t : State} (ha : Action may s t) (h : s.ackRequested) :
    t.ackRequested := by
  cases ha with
  | registers d r htype hm hack =>
    intro b hb
    obtain ⟨op, hne, hbit, hsel⟩ := h b (hack ▸ hb)
    exact ⟨op, hne, hbit, by unfold State.selected at hsel ⊢; rwa [← hm] at hsel⟩
  | clearedAck => exact fun b hb => (Bool.false_ne_true ((BitVec.getLsbD_zero).symm.trans hb)).elim
  | acked op hsel hne =>
    intro b hb
    rcases getLsbD_ackOp.mp hb with hb | ⟨rfl, -⟩
    · exact h b hb
    · exact ⟨op, hne, rfl, hsel⟩
  | sent _ d bs => cases d <;> exact h
  | _ => exact h

theorem Runs.ackRequested {may : Set Part} {s t : State} (hr : Runs may s t) (h : s.ackRequested) :
    t.ackRequested :=
  (hr.induct (R := fun _ _ => True) Action.ackRequested (fun _ => trivial) (fun _ _ => trivial)
    (fun _ _ => trivial) h).2

end Sys2Proof.Machine
end

section
/-! Every row but `RX_BYTE`, `PROCESS` and `RESET` is made of actions: one lemma per shared operation, in
the order of the model, up to the rows. -/

namespace Sys2Proof.Machine

/-! ### Operations made of actions -/

/-- Whatever state an operation answers, actions lead to it from `s`. -/
def Reaches (may : Set Part) (s : State) (x : Res State) : Prop := ∀ t, x = .ok t → Runs may s t

/-- The same of an operation that answers a value beside the state. -/
def ReachesWith {α : Type} (may : Set Part) (s : State) (x : Res (State × α)) : Prop :=
  ∀ t a, x = .ok (t, a) → Runs may s t

section
variable {may : Set Part} {s u : State}

theorem Runs.act {t : State} (h : Action may s t) : Runs may s t := Relation.ReflTransGen.single h

theorem Runs.refl : Runs may s s := Relation.ReflTransGen.refl

theorem Reaches.ok {t : State} (h : Runs may s t) : Reaches may s (.ok t) := by
  rintro _ ⟨⟩
  exact h

theorem Reaches.after {x : Res State} (h : Runs may s u) (hx : Reaches may u x) : Reaches may s x :=
  fun t ht => h.trans (hx t ht)

theorem Reaches.bind {x : Res State} {f : State → Res State} (hx : Reaches may s x)
    (hf : ∀ u, Runs may s u → Reaches may u (f u)) : Reaches may s (x.bind f) := by
  intro t ht
  obtain ⟨u, hu, ht⟩ := bind_eq_ok.mp ht
  exact (hx u hu).trans (hf u (hx u hu) t ht)

theorem Reaches.map {x : Res State} {g : State → State} (hx : Reaches may s x)
    (hg : ∀ u, Runs may s u → Runs may u (g u)) : Reaches may s (x.map g) := by
  intro t ht
  obtain ⟨u, hu, rfl⟩ := map_eq_ok.mp ht
  exact (hx u hu).trans (hg u (hx u hu))

theorem Reaches.ite {c : Prop} [Decidable c] {x y : Res State} (hx : c → Reaches may s x)
    (hy : ¬ c → Reaches may s y) : Reaches may s (if c then x else y) := by
  split
  · next h => exact hx h
  · next h => exact hy h

theorem ReachesWith.bind {α : Type} {x : Res (State × α)} {f : State × α → Res State}
    (hx : ReachesWith may s x) (hf : ∀ u a, Runs may s u → Reaches may u (f (u, a))) :
    Reaches may s (x.bind f) := by
  intro t ht
  obtain ⟨⟨u, a⟩, hu, ht⟩ := bind_eq_ok.mp ht
  exact (hx u a hu).trans (hf u a (hx u a hu) t ht)

theorem ReachesWith.map {α : Type} {x : Res (State × α)} {g : State × α → State}
    (hx : ReachesWith may s x) (hg : ∀ u a, Runs may u (g (u, a))) : Reaches may s (x.map g) := by
  intro t ht
  obtain ⟨⟨u, a⟩, hu, rfl⟩ := map_eq_ok.mp ht
  exact (hx u a hu).trans (hg u a)

theorem runAll_reaches {fs : List (State → Res State)} (h : ∀ f ∈ fs, ∀ u, Reaches may u (f u))
    (s : State) : Reaches may s (runAll fs s) := fun _ =>
  runAll_keeps (Runs may s) fs (fun f hf u v hu hv => hu.trans (h f hf u v hv)) s _ (Runs.refl)

end

section
variable {may : Set Part}

/-! ### Registers and events -/

/-- A result is left. -/
theorem setResult_runs (s : State) (r : OpResult) : Runs may s (s.setResult r) :=
  .act (.registers s.disp r rfl rfl rfl rfl)

theorem setSeq_runs (s : State) (n : Fin 25) : Runs may s (s.setSeq n) :=
  .act (.registers { s.disp with seq := n } s.out.result rfl rfl rfl rfl)

theorem setOk_runs (s : State) (b : Bool) : Runs may s (s.setOk b) :=
  .act (.registers { s.disp with ok := b } s.out.result rfl rfl rfl rfl)

theorem setSub_runs (s : State) (v : Half) : Runs may s (s.setSub v) :=
  .act (.registers { s.disp with sub := v } s.out.result rfl rfl rfl rfl)

theorem setLedsub_runs (s : State) (v : Half) : Runs may s (s.setLedsub v) :=
  .act (.registers { s.disp with ledsub := v } s.out.result rfl rfl rfl rfl)

theorem setRecord_runs (s : State) (r : List Byte) : Runs may s (s.setRecord r) :=
  .act (.registers { s.disp with record := r } s.out.result rfl rfl rfl rfl)

theorem record_runs (s : State) {e : Event} (h : e.plain = true) : Runs may s (s.record e) :=
  .act (.event e h)

/-- The live record is asked for and stands in `rec` (R242, R245). -/
theorem readConfig_runs (s : State) : Runs may s ((s.record .readConfig).setRecord s.env.liveCfg) :=
  (record_runs s (e := .readConfig) rfl).trans (setRecord_runs _ _)

/-- An error outcome other than `E_OVERFLOW` is raised. -/
theorem raise_runs (s : State) {c : ErrClass} (h : c ≠ .overflow) (w : Site) :
    Runs may s (s.raise c w) := by
  refine record_runs s ?_
  cases c with
  | overflow => exact absurd rfl h
  | _ => rfl

/-! ### Reading (R141) -/

theorem takeBytes_reaches (s : State) (n : Nat) : ReachesWith may s (takeBytes n s) := by
  intro t a h
  rcases takeBytes_inv h with ⟨-, rfl, -⟩ | ⟨hn, rfl, -⟩
  · exact .refl
  · exact .act (.took n hn)

theorem parseInto_reaches (s : State) (ts : List FieldType) : ReachesWith may s (parseInto ts s) := by
  intro t a h
  rcases parseInto_inv h with ⟨-, rfl, -⟩ | ⟨hn, rfl, -⟩
  · exact .refl
  · exact .act (.took _ hn)

theorem memWrite_wcfg_reaches (s : State) (off : Nat) (bs : List Byte) :
    Reaches may s (memWrite .wcfg off bs s) := by
  intro t h
  obtain ⟨rfl, -⟩ := memWrite_inv h
  exact .act (.wrote off bs)

theorem parseToWcfg_reaches (s : State) (off n : Nat) : Reaches may s (parseToWcfg off n s) := by
  refine (takeBytes_reaches s n).bind fun u a _ => ?_
  cases a with
  | none => exact .ok (setOk_runs u false)
  | some bs => exact memWrite_wcfg_reaches u off bs

theorem readLedsub_reaches {f : State → Res State} (hf : ∀ u, Reaches may u (f u)) (s : State) :
    Reaches may s (readLedsub f s) := by
  refine (parseInto_reaches s [.u16]).bind fun u a _ => ?_
  cases a with
  | none => exact .ok (setOk_runs u false)
  | some vs => exact .after (setLedsub_runs u _) (hf _)

theorem allLeds_reaches {f : Nat → State → Res State} (hf : ∀ i u, Reaches may u (f i u)) (s : State) :
    Reaches may s (allLeds f s) := by
  refine runAll_reaches (fun g hg => ?_) s
  obtain ⟨i, -, rfl⟩ := List.mem_map.mp hg
  exact hf i

/-! ### Writing (R146 to R148) -/

section
variable (hmay : .frame ∈ may)
include hmay

theorem append_reaches (s : State) (bs : List Byte) : ReachesWith may s (append bs s) := by
  intro t b h
  rcases append_inv h with ⟨-, rfl, -⟩ | ⟨hcap, hbuf, rfl, -⟩
  · exact .act (.writer hmay { s.wr with ovf := true } id id)
  · refine .act (.writer hmay _ (Memory.wf_writeBytes bs _ _) fun ⟨_, hlarge⟩ => ⟨hcap, ?_⟩)
    rcases hbuf with rfl | hbuf
    · exact hlarge
    · exact hbuf

theorem put_reaches (s : State) (bs : List Byte) : Reaches may s (put bs s) :=
  (append_reaches hmay s bs).map fun _ _ => .refl

theorem beginFrame_reaches (s : State) (c : FrameClass) (type mask : Word) :
    Reaches may s (beginFrame c type mask s) := by
  refine .after (.act (.writer hmay { s.wr with cap := s.params.cap c, len := 0, ovf := false } id
    fun _ => ⟨Nat.zero_le _, Nat.zero_le _⟩)) ?_
  exact (put_reaches hmay _ _).bind fun _ _ => put_reaches hmay _ _

theorem sendFrame_reaches (s : State) (w : Site) (d : Dest) : Reaches may s (sendFrame w d s) := by
  intro t h
  rcases sendFrame_inv h with ⟨-, rfl⟩ | ⟨-, rfl⟩
  · exact .act (.overflowed hmay w)
  · exact (Runs.act (.writer hmay { s.wr with tx := .idle } id id)).tail (.sent hmay d _)

end

/-! ### The Configuration Record (R172 to R178) -/

theorem parseField_reaches (k : SubField) (s : State) : Reaches may s (parseField k s) := by
  refine .ite (fun _ => .ite (fun _ => ?_) fun _ => parseToWcfg_reaches _ _ _) fun _ => .ok .refl
  refine readLedsub_reaches (allLeds_reaches fun i u => ?_) s
  exact .ite (fun _ => parseToWcfg_reaches _ _ _) fun _ => .ok .refl

theorem resetField_reaches (k : SubField) (s : State) : Reaches may s (resetField k s) := by
  refine .ite (fun _ => .ite (fun _ => ?_) fun _ => memWrite_wcfg_reaches _ _ _) fun _ => .ok .refl
  refine readLedsub_reaches (allLeds_reaches fun i u => ?_) s
  exact .ite (fun _ => memWrite_wcfg_reaches _ _ _) fun _ => .ok .refl

theorem writeField_reaches (hmay : .frame ∈ may) (k : SubField) (s : State) :
    Reaches may s (writeField k s) := by
  refine .ite (fun _ => .ite (fun _ => ?_) fun _ => put_reaches hmay _ _) fun _ => .ok .refl
  refine (put_reaches hmay _ _).bind fun u _ => allLeds_reaches (fun i v => ?_) u
  exact .ite (fun _ => put_reaches hmay _ _) fun _ => .ok .refl

theorem subRow_reaches (hmay : .frame ∈ may) (k : SubField) (w : SubWalk) (s : State) :
    Reaches may s (subRow k w s) := by
  cases w with
  | parse => exact parseField_reaches k s
  | reset => exact resetField_reaches k s
  | write => exact writeField_reaches hmay k s

theorem walkFields_reaches {w : SubWalk} (h : ∀ k u, Reaches may u (subRow k w u)) (s : State) :
    Reaches may s (walkFields w s) := by
  refine runAll_reaches (fun f hf => ?_) s
  obtain ⟨k, -, rfl⟩ := List.mem_map.mp hf
  exact h k

theorem parsePartial_reaches (s : State) (sub : Half) : Reaches may s (parsePartial sub s) :=
  .after (setSub_runs s sub) (.after (setOk_runs _ true) (walkFields_reaches parseField_reaches _))

theorem resetPartial_reaches (s : State) (sub : Half) : Reaches may s (resetPartial sub s) :=
  .after (setSub_runs s sub) (.after (setOk_runs _ true) (walkFields_reaches resetField_reaches _))

theorem writePartial_reaches (hmay : .frame ∈ may) (s : State) (sub ledsub : Half) :
    Reaches may s (writePartial sub ledsub s) :=
  .after (setSub_runs s sub) (.after (setLedsub_runs _ ledsub) ((put_reaches hmay _ _).bind fun _ _ =>
    walkFields_reaches (writeField_reaches hmay) _))

theorem readFull_reaches (s : State) : ReachesWith may s (readFull s) := by
  intro t b h
  obtain ⟨⟨u, a⟩, hu, h⟩ := bind_eq_ok.mp h
  refine (parseInto_reaches s _ u a hu).trans ?_
  cases a with
  | none =>
    cases h
    exact .refl
  | some vs =>
    obtain ⟨v, hv, h⟩ := map_eq_ok.mp h
    cases h
    exact memWrite_wcfg_reaches u _ _ _ hv

/-! ### The collaborators (R331, R332) -/

theorem setMotorOut_runs (s : State) (i : Fin 8) (v : Half) : Runs may s (setMotorOut i v s) :=
  (Runs.act (.collaborated { s.env with live := { s.env.live with
    motorOut := s.env.live.motorOut.set i v } } rfl rfl fun _ h => h)).tail (.event _ rfl)

theorem logAsk_runs (s : State) (b : Bool) : Runs may s (logAsk b s) :=
  .act (.collaborated
    { s.env with logOpen := s.env.logAnswers.headD b, logAnswers := s.env.logAnswers.tail }
    rfl rfl fun _ h => h)

theorem Env.wf_logSetLock {e : Env} {p : Params} (b : Bool) (h : e.wf p = true) :
    Env.wf { e with logLocked := b, lockSet := some b } p = true := by
  simp only [Env.wf, Bool.and_eq_true] at h ⊢
  obtain ⟨⟨⟨hrecords, hlive⟩, -⟩, hanswers⟩ := h
  exact ⟨⟨⟨hrecords, hlive⟩, beq_self_eq_true b⟩, hanswers⟩

theorem logSetLock_runs (s : State) (b : Bool) : Runs may s (logSetLock b s) :=
  (Runs.act (.collaborated { s.env with logLocked := b, lockSet := some b } rfl rfl
    fun _ => Env.wf_logSetLock b)).tail (.event _ rfl)

theorem recordingRequest_runs (s : State) (flags : Byte) : Runs may s (recordingRequest flags s) := by
  have hunlock := logSetLock_runs (may := may) s false
  unfold recordingRequest
  split
  · exact ((hunlock.trans (logAsk_runs _ true)).tail (.event _ rfl)).trans (logSetLock_runs _ _)
  · exact ((hunlock.trans (logAsk_runs _ false)).tail (.event _ rfl)).trans (logSetLock_runs _ _)

/-! ### Committing (R179, R240, R243, R244) -/

theorem wcfgRecord_length (s : State) : s.wcfgRecord.length = s.params.cfgTotal :=
  Memory.readBytes_length ..

/-- R179: both transactions of a commit of the working copy. -/
theorem commitWorking_runs {s : State}
    (h : .unvalidated ∉ may → s.params.configValid s.wcfgRecord = true) :
    Runs may s (s.committed s.wcfgRecord) :=
  .act (.committed s.disp.wcfg s.wcfgRecord id (wcfgRecord_length s) fun hn _ => h hn)

theorem ackOp_runs {s u : State} {op : CmdOp} (hsel : s.selected op = true) (hne : op ≠ .reqResponse)
    (h : Runs may s u) : Runs may s (u.ackOp op) :=
  h.tail (.acked op ((h.framed.selected op).trans hsel) hne)

/-- What follows the two transactions of a commit (R179, R203). -/
theorem afterCommit_runs {s u : State} {op : CmdOp} (hsel : s.selected op = true)
    (hne : op ≠ .reqResponse) (h : Runs may s u) (ok : Bool) :
    Runs may s (if ok then u.ackOp op else u.raise .collab (.op op)) := by
  split
  · exact ackOp_runs hsel hne h
  · exact h.trans (raise_runs _ (by decide) _)

theorem validateAndCommit_reaches {s : State} {op : CmdOp} (hsel : s.selected op = true)
    (hne : op ≠ .reqResponse) : Reaches may s (validateAndCommit op s) := by
  rw [validateAndCommit_eq]
  refine .ok ?_
  split
  · next hvalid => exact afterCommit_runs hsel hne (commitWorking_runs fun _ => hvalid) _
  · exact raise_runs s (by decide) _

theorem finishPartial_reaches {s : State} {op : CmdOp} (hsel : s.selected op = true)
    (hne : op ≠ .reqResponse) : Reaches may s (finishPartial op s) :=
  .ite (fun _ => validateAndCommit_reaches hsel hne) fun _ => .ok (raise_runs s (by decide) _)

theorem loadPersisted_reaches (s : State) : Reaches may s (loadPersisted s) :=
  .after (record_runs s rfl) (memWrite_wcfg_reaches _ _ _)

/-! ### The operations (R210 to R218, R240 to R247) -/

/-- The parts of an operation's row: three operations write a control register, four send a frame. -/
def opParts : CmdOp → Set Part
  | .setStateMask | .setStateDelay | .setSdWriteDelay => {.control}
  | .reqEepromData | .reqPartialEepromData | .reqCardRecordingState | .reqResponse => {.frame}
  | _ => ∅

theorem simpleOp_reaches {s : State} {op : CmdOp} {f : State → State} (hsel : s.selected op = true)
    (hne : op ≠ .reqResponse) (h : Runs may s (f s)) : Reaches may s (simpleOp op f s) :=
  .ok (ackOp_runs hsel hne h)

/-- R203: what an operation answers, and then its ack bit. -/
theorem Reaches.acked {s : State} {x : Res State} {op : CmdOp} (hx : Reaches may s x)
    (hsel : s.selected op = true) (hne : op ≠ .reqResponse) :
    Reaches may s (x.map fun u => u.ackOp op) :=
  hx.map fun _ hu => .act (.acked op ((hu.framed.selected op).trans hsel) hne)

/-- R241: no validity test precedes this commit, but WF8 has the defaults valid. -/
theorem reinitEepromData_reaches {s : State} (hsel : s.selected .reinitEepromData = true) :
    Reaches may s (opReinitEepromData s) := by
  intro t ht
  obtain ⟨u, hu, ht⟩ := bind_eq_ok.mp ht
  obtain ⟨rfl, -⟩ := memWrite_inv hu
  rw [commitAndAck_eq] at ht
  cases ht
  refine afterCommit_runs hsel (by decide) ?_ _
  refine .act (.committed _ _ (Memory.wf_writeBytes _ _ _) (wcfgRecord_length _) fun _ hinv => ?_)
  obtain ⟨hlen, hvalid⟩ := Params.wf_default hinv.params
  obtain ⟨-, -, hwf⟩ := hinv.memory
  exact (congrArg s.params.configValid (wcfgRecord_wroteWcfg hwf hlen)).trans hvalid

theorem setEepromData_reaches {s : State} (vs : List FieldVal) (hsel : s.selected .setEepromData = true) :
    Reaches may s (opSetEepromData vs s) :=
  (memWrite_wcfg_reaches s _ _).bind fun _ hu =>
    validateAndCommit_reaches ((hu.framed.selected _).trans hsel) (by decide)

/-- R243, R244: the persisted record is loaded, `walk` runs on it, and it is committed. -/
theorem partialOperation_reaches {s : State} {op : CmdOp} {walk : Half → State → Res State} (sub : Half)
    (hwalk : ∀ u, Reaches may u (walk sub u)) (hsel : s.selected op = true) (hne : op ≠ .reqResponse) :
    Reaches may s (partialOperation op walk sub s) := by
  refine .after (setSub_runs s sub) ((loadPersisted_reaches _).bind fun u hu => (hwalk u).bind fun v hv =>
    finishPartial_reaches ?_ hne)
  exact (hv.framed.selected op).trans ((hu.framed.selected op).trans hsel)

theorem requestLedsub_reaches (s : State) : Reaches may s (requestLedsub s) := by
  have hstart : Runs may s ((s.setLedsub 0#16).setOk true) :=
    (setLedsub_runs s _).trans (setOk_runs _ true)
  exact .ite (fun _ => .after hstart (readLedsub_reaches (fun _ => .ok .refl) _)) fun _ => .ok hstart

section
variable (hmay : .frame ∈ may)
include hmay

theorem reqEepromData_reaches {s : State} (hsel : s.selected .reqEepromData = true) :
    Reaches may s (opReqEepromData s) := by
  refine (beginFrame_reaches hmay s _ _ _).bind fun t ht => ?_
  have hrecord := readConfig_runs (may := may) t
  refine .after hrecord ((put_reaches hmay _ _).bind fun u hu =>
    (sendFrame_reaches hmay u _ _).acked ?_ ?_)
  · exact (Framed.selected (Runs.framed (ht.trans (hrecord.trans hu))) _).trans hsel
  · decide

theorem replyPartial_reaches {s : State} (hsel : s.selected .reqPartialEepromData = true) :
    Reaches may s (replyPartial s) := by
  refine (beginFrame_reaches hmay s _ _ _).bind fun t ht => ?_
  have hrecord := readConfig_runs (may := may) t
  refine .after hrecord ((writePartial_reaches hmay _ _ _).bind fun u hu =>
    (sendFrame_reaches hmay u _ _).acked ?_ ?_)
  · exact (Framed.selected (Runs.framed (ht.trans (hrecord.trans hu))) _).trans hsel
  · decide

theorem reqPartialEepromData_reaches {s : State} (sub : Half)
    (hsel : s.selected .reqPartialEepromData = true) : Reaches may s (opReqPartialEepromData sub s) :=
  .after (setSub_runs s sub) ((requestLedsub_reaches _).bind fun u hu =>
    .ite (fun _ => replyPartial_reaches hmay ((hu.framed.selected _).trans hsel))
      fun _ => .ok (raise_runs u (by decide) _))

theorem reqCardRecordingState_reaches {s : State} (hsel : s.selected .reqCardRecordingState = true) :
    Reaches may s (opReqCardRecordingState s) := by
  refine (beginFrame_reaches hmay s _ _ _).bind fun t ht => (put_reaches hmay t _).bind fun u hu => ?_
  have hask := (record_runs (may := may) u (e := .logIsOpen u.env.logOpen) rfl).trans
    (record_runs _ (e := .logIsLocked u.env.logLocked) rfl)
  refine .after hask ((put_reaches hmay _ _).bind fun v hv => (sendFrame_reaches hmay v _ _).acked ?_ ?_)
  · exact (Framed.selected (Runs.framed (ht.trans (hu.trans (hask.trans hv)))) _).trans hsel
  · decide

theorem reqResponse_reaches (s : State) : Reaches may s (opReqResponse s) :=
  (beginFrame_reaches hmay s _ _ _).bind fun t _ => (put_reaches hmay t _).bind fun u _ =>
    sendFrame_reaches hmay u _ _

end

end

/-- What a selected operation does with the values of its tuple. -/
theorem act_reaches {s : State} {op : CmdOp} (vs : List FieldVal) (hsel : s.selected op = true) :
    Reaches (opParts op) s (act op vs s) := by
  cases op with
  | setEepromData => exact setEepromData_reaches vs hsel
  | reinitEepromData => exact reinitEepromData_reaches hsel
  | reqEepromData => exact reqEepromData_reaches (by simp [opParts]) hsel
  | reqEnableIteration =>
    rw [act_reqEnableIteration]
    exact simpleOp_reaches hsel (by decide) (record_runs s rfl)
  | motor i => exact simpleOp_reaches hsel (by simp) (setMotorOut_runs s i _)
  | setCommandOverride =>
    rw [act_setCommandOverride]
    exact simpleOp_reaches hsel (by decide) (record_runs s rfl)
  | setStateMask =>
    rw [act_setStateMask]
    exact simpleOp_reaches hsel (by decide) (.single (.control (by simp [opParts]) _))
  | setStateDelay =>
    rw [act_setStateDelay]
    exact simpleOp_reaches hsel (by decide) (.single (.control (by simp [opParts]) _))
  | setSdWriteDelay =>
    rw [act_setSdWriteDelay]
    exact simpleOp_reaches hsel (by decide) (.single (.control (by simp [opParts]) _))
  | setLed =>
    rw [act_setLed]
    exact simpleOp_reaches hsel (by decide) (record_runs s rfl)
  | setSerialRc =>
    rw [act_setSerialRc]
    exact simpleOp_reaches hsel (by decide) (record_runs s rfl)
  | setCardRecording => exact simpleOp_reaches hsel (by decide) (recordingRequest_runs s _)
  | setPartialEepromData =>
    exact partialOperation_reaches _ (fun u => parsePartial_reaches u _) hsel (by decide)
  | reinitPartialEepromData =>
    exact partialOperation_reaches _ (fun u => resetPartial_reaches u _) hsel (by decide)
  | reqPartialEepromData => exact reqPartialEepromData_reaches (by simp [opParts]) _ hsel
  | reqCardRecordingState => exact reqCardRecordingState_reaches (by simp [opParts]) hsel
  | reqResponse => exact reqResponse_reaches (by simp [opParts]) s

/-- An operation's row: its tuple, and then what it does with it (R13, R205). -/
theorem slotOf_reaches (op : CmdOp) (s : State) : Reaches (opParts op) s (slotOf op s) := by
  refine .after (setSeq_runs s op.seq) (.ite (fun hsel => ?_) fun _ => .ok .refl)
  refine (parseInto_reaches _ _).bind fun u a hu => ?_
  cases a with
  | none => exact .ok (raise_runs u (by decide) _)
  | some vs => exact act_reaches vs ((hu.framed.selected op).trans hsel)

theorem opParts_subset (op : CmdOp) : opParts op ⊆ {.control, .frame} := by
  cases op <;> simp [opParts]

/-- The slots, one after the other (R200). -/
theorem slots_reaches (s : State) : Reaches {.control, .frame} s (runAll (CmdOp.all.map slotOf) s) := by
  refine runAll_reaches (fun f hf u => ?_) s
  obtain ⟨op, -, rfl⟩ := List.mem_map.mp hf
  exact fun v hv => (slotOf_reaches op u v hv).mono (opParts_subset op)

/-- The dispatch of a Command frame (R200 steps 2 to 4). -/
theorem acceptCommand_reaches (s : State) : Reaches {.control, .frame} s (acceptCommand s) :=
  .after (.single .clearedAck) ((slots_reaches _).map fun t _ => setSeq_runs t 24)

/-! ### The Telemetry Encoder (R261, R270 to R296) -/

section
variable {may : Set Part} (hmay : .frame ∈ may)
include hmay

theorem emitRow_reaches (r : TelemetryRow) (s : State) : Reaches may s (emitRow r s) :=
  .ite (fun _ => put_reaches hmay _ _) fun _ => .ok .refl

theorem stateRow_reaches (f : TelField) (s : State) : Reaches may s (stateRow f s) := by
  unfold stateRow
  split
  · exact emitRow_reaches hmay _ s
  · exact .ok .refl

theorem emitRows_reaches (s : State) : Reaches may s (emitRows s) := by
  refine runAll_reaches (fun f hf => ?_) s
  obtain ⟨r, -, rfl⟩ := List.mem_map.mp hf
  exact emitRow_reaches hmay r

theorem buildState_reaches (htel : .telemetry ∈ may) (ts : Word) (toLog : Bool) (s : State) :
    Reaches may s (buildState ts toLog s) := by
  refine (beginFrame_reaches hmay s _ _ _).bind fun t _ => ?_
  have hsnap := record_runs (may := may) t (e := .snapshotTelemetry) rfl
  exact .after (hsnap.tail (.telemetry htel { t.tel with ts := ts, snap := t.env.live }))
    ((emitRows_reaches hmay _).bind fun u _ => sendFrame_reaches hmay u _ _)

theorem emitMask_reaches (htel : .telemetry ∈ may) (ts mask : Word) (toLog : Bool) (s : State) :
    Reaches may s (emitMask ts mask toLog s) :=
  .ite (fun _ => .ok (.single (.telemetry htel _))) fun _ =>
    .after (.single (.telemetry htel _)) (buildState_reaches hmay htel ts toLog _)

theorem emitState_reaches (htel : .telemetry ∈ may) (ts mask : Word) (toLog : Bool) (s : State) :
    Reaches may s (emitState ts mask toLog s) := by
  have hask := record_runs (may := may) s (e := .logIsOpen s.env.logOpen) rfl
  refine .ite (fun _ => .after hask (.ite (fun _ => ?_) fun _ => .ok .refl)) fun _ => ?_
  · exact emitMask_reaches hmay htel ts mask true _
  · exact emitMask_reaches hmay htel ts mask false s

end

end Sys2Proof.Machine
end

section
/-! The rows (R99): which parts of the state each may write (R59), and what keeps the streaming registers
in step with `rx_acc` (R21, R119). -/

namespace Sys2Proof.Machine

/-! ### Every row but three is made of actions -/

/-- The parts of a row. -/
def instrParts : Instr → Set Part
  | .setStateMask | .setStateDelay | .setSdWriteDelay | .typeCommand => {.control, .frame}
  | .emit _ _ _ => {.frame, .telemetry}
  | .commit => {.frame, .unvalidated}
  | _ => {.frame}

theorem Reaches.next {may may' : Set Part} {s t : State} {x : Res State} (hx : Reaches may s x)
    (hsub : may ⊆ may') (h : outcome x = .next t) : Runs may' s t :=
  (hx t (outcome_eq_next.mp h)).mono hsub

/-- The row `Commit` commits what it is given (R179). -/
theorem commit_reaches {may : Set Part} (hmay : .unvalidated ∈ may) (w : Site) (s : State) :
    ReachesWith may s (commit w s) := by
  intro t b h
  have hrun : Runs may s (s.committed s.wcfgRecord) := commitWorking_runs fun hn => absurd hmay hn
  rw [commit_eq, commitRecord_eq] at h
  cases h
  split
  · exact hrun
  · exact hrun.trans (raise_runs _ (by decide) _)

theorem whenType_reaches {may : Set Part} {s : State} {tag : Word} {f : State → Res State}
    (h : Reaches may s (f s)) : Reaches may s (whenType tag f s) :=
  .ite (fun _ => h) fun _ => .ok .refl

theorem opParts_subset_instrParts (op : CmdOp) : opParts op ⊆ instrParts op.instr := by
  cases op with
  | setStateMask | setStateDelay | setSdWriteDelay => exact Set.singleton_subset_iff.mpr (.inl rfl)
  | reqEepromData | reqPartialEepromData | reqCardRecordingState | reqResponse =>
    exact Set.singleton_subset_iff.mpr rfl
  | _ => exact Set.empty_subset _

theorem exec_cmd_runs {i : Instr} {s t : State} (hi : i ∈ CmdOp.all.map CmdOp.instr)
    (h : exec i s = .next t) : Runs (instrParts i) s t := by
  obtain ⟨op, -, rfl⟩ := List.mem_map.mp hi
  rw [exec_cmd] at h
  exact (slotOf_reaches op s).next (opParts_subset_instrParts op) h

theorem exec_runs {i : Instr} {s t : State} (hrx : ∀ b, i ≠ .rxByte b) (hprocess : i ≠ .process)
    (hreset : i ≠ .reset) (h : exec i s = .next t) : Runs (instrParts i) s t := by
  have hframe : Part.frame ∈ ({.frame} : Set Part) := rfl
  cases i with
  | setEepromData | reinitEepromData | reqEepromData | reqEnableIteration | motorOverrideSpeed0
  | motorOverrideSpeed1 | motorOverrideSpeed2 | motorOverrideSpeed3 | motorOverrideSpeed4
  | motorOverrideSpeed5 | motorOverrideSpeed6 | motorOverrideSpeed7 | setCommandOverride | setStateMask
  | setStateDelay | setSdWriteDelay | setLed | setSerialRc | setCardRecording | setPartialEepromData
  | reinitPartialEepromData | reqPartialEepromData | reqCardRecordingState | reqResponse =>
    exact exec_cmd_runs (by decide) h
  | version w | pcb w | mixTable w | magBias w | channel w | pidParameters w | stateParameters w
  | ledStates w | deviceName w => exact (subRow_reaches hframe _ w s).next subset_rfl h
  | micros | status | v0 | i0 | i1 | accel | gyro | mag | temperature | pressure | rxPpm | auxChanMask
  | commands | fAndT | pidFzMaster | pidTxMaster | pidTyMaster | pidTzMaster | pidFzSlave | pidTxSlave
  | pidTySlave | pidTzSlave | motorOut | kineAngle | kineRate | kineAltitude | loopCount =>
    exact (stateRow_reaches hframe _ s).next subset_rfl h
  | typeCommand => exact (whenType_reaches (acceptCommand_reaches s)).next subset_rfl h
  | typeState | typeResponse =>
    exact (whenType_reaches (f := fun u => .ok (ignoreFrame u)) (.ok (setSeq_runs s 24))).next
      subset_rfl h
  | rxByte b => exact absurd rfl (hrx b)
  | process => exact absurd rfl hprocess
  | reset => exact absurd rfl hreset
  | encode _ | decode _ _ | fromString _ | stateLen _ =>
    cases h
    exact setResult_runs s _
  | emit ts mask toLog =>
    exact (emitState_reaches (.inl rfl) (.inr rfl) ts mask toLog s).next subset_rfl h
  | parseInto ts => exact ((parseInto_reaches s ts).map fun u _ => setResult_runs u _).next subset_rfl h
  | append bs => exact ((append_reaches hframe s bs).map fun u _ => setResult_runs u _).next subset_rfl h
  | beginFrame c type mask => exact (beginFrame_reaches hframe s c type mask).next subset_rfl h
  | send d => exact (sendFrame_reaches hframe s .send d).next subset_rfl h
  | verify | configValid =>
    obtain ⟨b, -, rfl⟩ := map_eq_ok.mp (outcome_eq_next.mp h)
    exact setResult_runs s _
  | readFull => exact ((readFull_reaches s).map fun u _ => setResult_runs u _).next subset_rfl h
  | writeFull => exact (put_reaches hframe s _).next subset_rfl h
  | writePartial sub ledsub => exact (writePartial_reaches hframe s sub ledsub).next subset_rfl h
  | parsePartial sub =>
    exact ((parsePartial_reaches s sub).map fun u _ => setResult_runs u _).next subset_rfl h
  | resetPartial sub =>
    exact ((resetPartial_reaches s sub).map fun u _ => setResult_runs u _).next subset_rfl h
  | commit =>
    exact ((commit_reaches (.inr rfl) .commit s).map fun u _ => setResult_runs u _).next subset_rfl h

/-! ### `PROCESS` (R200, R201) -/

theorem ignoreFrame_runs {may : Set Part} (s : State) : Runs may s (ignoreFrame s) := setSeq_runs s 24

/-- What the header's type decides (R200 step 1). -/
theorem dispatchType_reaches (s : State) : Reaches {.control, .frame} s (dispatchType s) :=
  .ite (fun _ => acceptCommand_reaches s) fun _ => .ok (ignoreFrame_runs s)

/-- Once RBUF is loaded and the header parsed, actions lead to what `processFrame` answers. -/
theorem processFrame_runs {s t : State} {x : List Byte} (h : processFrame x s = .ok t) :
    ∃ rd d, Runs {.control, .frame} { s with rd := rd, disp := d } t := by
  obtain ⟨u, hu, h⟩ := bind_eq_ok.mp h
  obtain ⟨v, hv, rfl⟩ := map_eq_ok.mp hu
  obtain ⟨rfl, -⟩ := memWrite_inv hv
  obtain ⟨⟨w, a⟩, hw, h⟩ := bind_eq_ok.mp h
  rcases parseInto_inv hw with ⟨-, rfl, rfl⟩ | ⟨-, rfl, rfl⟩
  · cases h
    exact ⟨_, s.disp, (raise_runs _ (by decide) _).trans (setSeq_runs _ 24)⟩
  · exact ⟨_, _, dispatchType_reaches _ t h⟩

/-- `PROCESS` takes the oldest payload, and actions do the rest. -/
theorem process_runs {s t : State} (h : exec .process s = .next t) :
    ∃ q rd d,
      Runs {.control, .frame} { s with rx := { s.rx with queue := q }, rd := rd, disp := d } t := by
  have hhead : processHead s = .ok t := outcome_eq_next.mp h
  unfold processHead at hhead
  split at hhead
  · cases hhead
    exact ⟨s.rx.queue, s.rd, s.disp, .refl⟩
  · next x q _ =>
    obtain ⟨rd, d, hrun⟩ := processFrame_runs hhead
    exact ⟨q, rd, d, hrun⟩

/-! ### What a row may write (R17 to R19, R41, R59) -/

theorem rxByte_eq (b : Byte) (s : State) : ∃ rx out, rxByte b s = { s with rx := rx, out := out } := by
  by_cases hb : b = 0#8
  · subst hb
    cases hd : decodeFrame s.params s.rx.acc s.params.capRx with
    | none => exact ⟨_, _, rxByte_zero_of_none hd⟩
    | some r => exact ⟨_, s.out, rxByte_zero_of_some hd⟩
  · exact ⟨_, s.out, rxByte_of_ne_zero hb s⟩

theorem control_notMem_instrParts {i : Instr}
    (h : i ∉ [.setStateMask, .setStateDelay, .setSdWriteDelay, .typeCommand, .process, .reset]) :
    .control ∉ instrParts i := by
  have hpair : ∀ x : Part, x ≠ .control → .control ∉ ({.frame, x} : Set Part) := by
    rintro x hx (hc | hc)
    · cases hc
    · exact hx hc.symm
  cases i with
  | setStateMask | setStateDelay | setSdWriteDelay | typeCommand => exact absurd (by decide) h
  | emit => exact hpair .telemetry nofun
  | commit => exact hpair .unvalidated nofun
  | _ => exact fun hc : Part.control = Part.frame => nomatch hc

theorem telemetry_notMem_instrParts {i : Instr} (h : ∀ a m l, i ≠ .emit a m l) :
    .telemetry ∉ instrParts i := by
  have hpair : ∀ x : Part, x ≠ .telemetry → .telemetry ∉ ({x, .frame} : Set Part) := by
    rintro x hx (hc | hc)
    · exact hx hc.symm
    · cases hc
  cases i with
  | setStateMask | setStateDelay | setSdWriteDelay | typeCommand => exact hpair .control nofun
  | emit ts m l => exact absurd rfl (h ts m l)
  | commit => exact fun hc => hpair .unvalidated nofun (Or.symm hc)
  | _ => exact fun hc : Part.telemetry = Part.frame => nomatch hc

/-- Settles O46: a row made of actions writes what its parts allow; `RX_BYTE` and `RESET` are one update
each, and `PROCESS` is one update before its actions. -/
theorem ownersOfState : Obligations.OwnersOfState := by
  intro i s t h
  by_cases hrx : ∃ b, i = .rxByte b
  · obtain ⟨b, rfl⟩ := hrx
    obtain ⟨rx, out, hb⟩ := rxByte_eq b s
    rw [exec_rxByte, hb] at h
    cases h
    exact ⟨rfl, rfl, fun _ => rfl, fun _ => ⟨rfl, rfl, le_rfl⟩, fun _ _ hne => absurd rfl (hne b),
      fun _ => rfl⟩
  by_cases hprocess : i = .process
  · subst hprocess
    obtain ⟨q, rd, d, hrun⟩ := process_runs h
    have hf := hrun.framed
    exact ⟨hf.params, hf.stimuli, fun hn => absurd (by decide) hn, fun hn => absurd rfl hn,
      fun hn => absurd rfl hn, fun _ => hf.tel (by simp)⟩
  by_cases hreset : i = .reset
  · subst hreset
    rw [exec_reset] at h
    cases h
    exact ⟨rfl, rfl, fun hn => absurd (by decide) hn, fun _ => ⟨rfl, rfl, le_rfl⟩,
      fun _ hn => absurd rfl hn, fun _ => rfl⟩
  have hf := (exec_runs (fun b hb => hrx ⟨b, hb⟩) hprocess hreset h).framed
  exact ⟨hf.params, hf.stimuli, fun hn => hf.ctl (control_notMem_instrParts hn),
    fun _ => ⟨hf.buf, hf.len, hf.pos⟩, fun _ _ _ => hf.rx,
    fun hn => hf.tel (telemetry_notMem_instrParts hn)⟩

/-! ### The streaming registers (R119) -/

/-- A framer with another frame being received and another queue, its streaming registers the same. -/
def Framer.carrying (f : Framer) (acc : List Byte) (queue : List (List Byte)) : Framer :=
  ⟨acc, f.fill, f.esc, f.bad, queue⟩

theorem Framer.push_carrying (f : Framer) (acc : List Byte) (queue : List (List Byte)) (n : Nat)
    (d : Byte) : (f.carrying acc queue).push n d = (f.push n d).carrying acc queue := by
  unfold Framer.push
  split
  · next h => rw [if_pos (show f.n = n from h)]; rfl
  · next h => rw [if_neg (show ¬ f.n = n from h)]; rfl

/-- R119: what a byte does to the streaming registers depends on these registers only. -/
theorem Framer.stream_carrying (f : Framer) (acc : List Byte) (queue : List (List Byte)) (p : Params)
    (b : Byte) : (f.carrying acc queue).stream p b = (f.stream p b).carrying acc queue := by
  have hesc : (f.carrying acc queue).esc = f.esc := rfl
  have hbad : (f.carrying acc queue).bad = f.bad := rfl
  simp only [Framer.stream, hesc, hbad]
  split_ifs
  · rfl
  · rfl
  · rfl
  · exact Framer.push_carrying { f with esc := false } ..
  · rfl
  · exact Framer.push_carrying ..

theorem Framer.follow_of_esc {p : Params} (h : p.codecAlg = .esc) (f : Framer) (b : Byte) :
    f.follow p b = f.stream p b := by
  rw [Framer.follow, h]

theorem Framer.stream_zero (f : Framer) (p : Params) :
    f.stream p 0#8 = { f with fill := [], esc := false, bad := false } := if_pos rfl

theorem streamAll_concat (p : Params) (f : List Byte) (b : Byte) :
    streamAll p (f ++ [b]) = (streamAll p f).stream p b := List.foldl_concat ..

/-- The streaming registers are those that the bytes of `rx_acc` lead to. -/
theorem streamTracks_iff {s : State} : s.streamTracks ↔ (s.params.codecAlg = .esc →
    s.rx = (streamAll s.params s.rx.acc).carrying s.rx.acc s.rx.queue) := by
  refine imp_congr Iff.rfl ⟨fun ⟨hfill, hesc, hbad⟩ => ?_, fun h => ?_⟩
  · rw [Framer.carrying, ← hfill, ← hesc, ← hbad]
  · rw [h]
    exact ⟨rfl, rfl, rfl⟩

/-- `RX_BYTE` keeps the streaming registers in step (R117, R119). -/
theorem streamTracks_rxByte {s : State} (h : s.streamTracks) (b : Byte) : (rxByte b s).streamTracks := by
  by_cases hb : b = 0#8
  · subst hb
    cases hd : decodeFrame s.params s.rx.acc s.params.capRx with
    | none =>
      rw [rxByte_zero_of_none hd]
      intro hesc
      simp only [State.raise_params, State.raise_rx] at hesc ⊢
      rw [Framer.follow_of_esc hesc, Framer.stream_zero]
      exact ⟨rfl, rfl, rfl⟩
    | some r =>
      rw [rxByte_zero_of_some hd]
      intro hesc
      simp only at hesc ⊢
      rw [Framer.follow_of_esc hesc, Framer.stream_zero]
      exact ⟨rfl, rfl, rfl⟩
  · rw [rxByte_of_ne_zero hb]
    rw [streamTracks_iff] at h
    intro hesc
    simp only at hesc ⊢
    rw [streamAll_concat, Framer.follow_of_esc hesc, h hesc, Framer.stream_carrying]
    exact ⟨rfl, rfl, rfl⟩

/-- Rows that write nothing of the framer but its queue keep the streaming registers in step. -/
theorem streamTracks_congr {s t : State} {q : List (List Byte)} (h : s.streamTracks)
    (hparams : t.params = s.params) (hrx : t.rx = { s.rx with queue := q }) : t.streamTracks := by
  rw [State.streamTracks, hparams, hrx]
  exact h

/-- Settles O7: a byte takes both sides of the equation one step on; `RESET` empties both; every other row
leaves the framer's registers alone. -/
theorem streamRegistersStayInStep : Obligations.StreamRegistersStayInStep := by
  intro i s t htracks h
  by_cases hrx : ∃ b, i = .rxByte b
  · obtain ⟨b, rfl⟩ := hrx
    rw [exec_rxByte] at h
    cases h
    exact streamTracks_rxByte htracks b
  by_cases hprocess : i = .process
  · subst hprocess
    obtain ⟨q, rd, d, hrun⟩ := process_runs h
    have hf := hrun.framed
    exact streamTracks_congr htracks hf.params hf.rx
  by_cases hreset : i = .reset
  · subst hreset
    rw [exec_reset] at h
    cases h
    exact fun _ => ⟨rfl, rfl, rfl⟩
  have hf := (exec_runs (fun b hb => hrx ⟨b, hb⟩) hprocess hreset h).framed
  exact streamTracks_congr htracks hf.params hf.rx

end Sys2Proof.Machine
end

section
/-! Every operation completes from a state of the invariant (R9, R315), and with it the dispatch of a
Command frame (R200); its ack word (R14, R248). -/

namespace Sys2Proof

/-- WF2: no two operations have the same mask bit as `REQ_RESPONSE`. -/
theorem Params.cmdBitOf_ne_reqResponse {p : Params} (h : p.wf = true) {op : CmdOp}
    (hne : op ≠ .reqResponse) : p.cmdBitOf op ≠ p.cmdBitOf .reqResponse := by
  simp only [Params.wf, Bool.and_eq_true] at h
  obtain ⟨⟨⟨⟨⟨⟨⟨⟨⟨⟨⟨-, hbits⟩, -⟩, -⟩, -⟩, -⟩, -⟩, -⟩, -⟩, -⟩, -⟩, -⟩ := h
  simp only [Params.wf2, Bool.and_eq_true, beq_iff_eq, decide_eq_true_eq] at hbits
  obtain ⟨⟨hlen, hnodup⟩, -⟩ := hbits
  have hslot : op.slot < 23 := by
    cases op with
    | reqResponse => exact absurd rfl hne
    | motor i => exact Nat.lt_of_lt_of_le (Nat.add_lt_add_left i.isLt 4) (by decide)
    | _ => simp [CmdOp.slot]
  intro heq
  simp only [Params.cmdBitOf, List.getD_eq_getElem?_getD] at heq
  have hlast : CmdOp.slot .reqResponse = 23 := rfl
  rw [hlast, List.getElem?_eq_getElem (by omega), List.getElem?_eq_getElem (by omega), Option.getD_some,
    Option.getD_some, hnodup.getElem_inj_iff] at heq
  omega

end Sys2Proof

namespace Sys2Proof.Machine

/-! ### The ack word of a Command frame (R14, R248) -/

theorem CmdOp.mem_all (op : CmdOp) : op ∈ CmdOp.all := by
  cases op with
  | motor i => fin_cases i <;> decide
  | _ => decide

/-- The state with `ack` cleared (R200 step 2). -/
def State.cleared (s : State) : State := { s with disp := { s.disp with ack := 0#32 } }

theorem acceptCommand_eq_map (s : State) :
    acceptCommand s = (runAll (CmdOp.all.map slotOf) s.cleared).map fun t => t.setSeq 24 := rfl

/-- From a cleared `ack`, the bits set by the slots are those of requested operations. -/
theorem ackRequested_of_slots {s t : State} (h : runAll (CmdOp.all.map slotOf) s.cleared = .ok t) :
    t.ackRequested :=
  (slots_reaches s.cleared t h).ackRequested fun _ hb =>
    (Bool.false_ne_true (BitVec.getLsbD_zero.symm.trans hb)).elim

/-- Settles O43: only selected operations other than `REQ_RESPONSE` set their bit, and WF2 gives
`REQ_RESPONSE` a bit of its own. -/
theorem ackOnlyRequestedOperations : Obligations.AckOnlyRequestedOperations := by
  intro s t hp htype h
  rw [exec_typeCommand, whenType_of_eq htype, acceptCommand_eq_map] at h
  obtain ⟨u, hu, rfl⟩ := map_eq_ok.mp (outcome_eq_next.mp h)
  have hack := ackRequested_of_slots hu
  have hf := (slots_reaches s.cleared u hu).framed
  have hparams : u.params = s.params := hf.params
  have hm : u.disp.m = s.disp.m := hf.m
  have hwithin : u.disp.ackWithinMask := by
    rw [ackWithinMask_iff]
    intro b hb
    obtain ⟨op, -, rfl, hsel⟩ := hack b hb
    exact hsel
  rw [State.setSeq_ack]
  refine ⟨hm ▸ hwithin, ?_, fun b _ hb => ?_⟩
  · by_contra hset
    obtain ⟨op, hne, hbit, -⟩ := hack _ (Bool.eq_true_of_not_eq_false hset)
    rw [hparams] at hbit
    exact Params.cmdBitOf_ne_reqResponse hp hne hbit
  · obtain ⟨op, -, hbit, -⟩ := hack b hb
    exact ⟨op, CmdOp.mem_all op, hparams ▸ hbit⟩

/-! ### Operations complete (R9) -/

theorem NoOverflow.record {s : State} {e : Event} (h : e.plain = true) : NoOverflow s (s.record e) :=
  .of_plain (evs := [e]) rfl (fun _ hx => List.mem_singleton.mp hx ▸ h) id

theorem NoOverflow.sentFrame (s : State) (c : FrameClass) (payload : List Byte) :
    NoOverflow s (s.sentFrame c payload) :=
  .of_plain (evs := [.writeBytes (encodeFrame s.params payload)]) rfl (by simp [Event.plain]) fun _ => rfl

theorem NoOverflow.ackOp (s : State) (op : CmdOp) : NoOverflow s (s.ackOp op) := .of_silent rfl id

/-- A reply that fits: what comes before its frame, the frame, and the ack bit. -/
theorem NoOverflow.reply {s u : State} (h : NoOverflow s u) (c : FrameClass) (payload : List Byte)
    (op : CmdOp) : NoOverflow s ((u.sentFrame c payload).ackOp op) :=
  (h.trans (.sentFrame u c payload)).trans (.ackOp _ op)

theorem NoOverflow.readConfig (s : State) (r : List Byte) :
    NoOverflow s ((s.record .readConfig).setRecord r) :=
  (NoOverflow.record (e := .readConfig) rfl).trans (.of_silent rfl id)

theorem readLedsub_ok_completes {s : State} (h : s.readerBounded) : ∃ t, readLedsub .ok s = .ok t := by
  rcases short_or_canParse h 2 with hs | hc
  · exact ⟨_, readLedsub_short _ hs⟩
  · exact ⟨_, readLedsub_eq _ hc (le2_half (nextBytes_length s 2)).symm⟩

theorem requestLedsub_completes {s : State} (h : s.readerBounded) : ∃ t, requestLedsub s = .ok t := by
  unfold requestLedsub
  split
  · exact readLedsub_ok_completes (s := (s.setLedsub 0#16).setOk true) h
  · exact ⟨_, rfl⟩

/-- WF5 leaves room for the reply (R245). -/
theorem replyPartial_completes {s : State} (h : s.Inv) :
    ∃ t, replyPartial s = .ok t ∧ NoOverflow s t := by
  obtain ⟨-, hw, -⟩ := h.memory
  exact ⟨_, replyPartial_eq h.params hw h.liveCfg_length, (NoOverflow.readConfig s _).reply _ _ _⟩

theorem reqPartialEepromData_completes {s : State} (h : s.Inv) (sub : Half) :
    ∃ t, opReqPartialEepromData sub s = .ok t ∧ NoOverflow s t := by
  obtain ⟨u, hu⟩ := requestLedsub_completes (s := s.setSub sub) h.reader
  have hrun : Runs ∅ s u := (setSub_runs s sub).trans (requestLedsub_reaches _ u hu)
  have hno : NoOverflow s u := hrun.noOverflow (Set.notMem_empty _)
  cases hok : u.disp.ok with
  | true =>
    obtain ⟨t, ht, hreply⟩ := replyPartial_completes (hrun.inv h)
    exact ⟨t, (opReqPartialEepromData_of_ok hu hok).trans ht, hno.trans hreply⟩
  | false => exact ⟨_, opReqPartialEepromData_of_fail hu hok, hno.trans (NoOverflow.record rfl)⟩

theorem partialOperation_completes {s : State} {op : CmdOp} {walk : Half → State → Res State} {sub : Half}
    (h : s.Inv) (hwalk : ∀ u : State, u.readerBounded → ∃ t, walk sub u = .ok t) :
    ∃ t, partialOperation op walk sub s = .ok t := by
  obtain ⟨t, ht⟩ := hwalk (((s.setSub sub).record .storageRead).wroteWcfg 0 s.env.persist) h.reader
  refine ⟨t.partialOutcome op, ?_⟩
  rw [partialOperation, loadPersisted_eq (s := s.setSub sub) h.persist_length, bind_ok]
  exact (congrArg (Except.bind · (finishPartial op)) ht).trans (finishPartial_eq op t)

/-- What an operation does with its values completes, and a frame that it sends fits (R149). -/
theorem act_completes {s : State} (h : s.Inv) (op : CmdOp) (vs : List FieldVal) :
    ∃ t, act op vs s = .ok t ∧ (.frame ∈ opParts op → NoOverflow s t) := by
  obtain ⟨-, hw, -⟩ := h.memory
  cases op with
  | setEepromData =>
    have hfit : 0 + (recordOperand s.params vs).length ≤ s.params.cfgTotal := by
      rw [recordOperand_length, Nat.zero_add]
    have heq : opSetEepromData vs s =
        validateAndCommit .setEepromData (s.wroteWcfg 0 (recordOperand s.params vs)) := by
      rw [opSetEepromData, memWrite_wcfg_eq hfit, bind_ok]
    exact ⟨_, heq.trans (validateAndCommit_eq _ _), nofun⟩
  | reinitEepromData => exact ⟨_, (opReinitEepromData_eq h.params).trans (commitAndAck_eq _ _), nofun⟩
  | reqEepromData =>
    exact ⟨_, opReqEepromData_eq h.params hw h.liveCfg_length, fun _ =>
      (NoOverflow.readConfig s _).reply _ _ _⟩
  | setPartialEepromData =>
    obtain ⟨t, ht⟩ := partialOperation_completes (op := .setPartialEepromData) h fun u hu =>
      (parsePartial_completes (halfOperand .setPartialEepromData vs) hu).imp fun _ h => h.1
    exact ⟨t, ht, nofun⟩
  | reinitPartialEepromData =>
    obtain ⟨t, ht⟩ := partialOperation_completes (op := .reinitPartialEepromData) h fun u hu =>
      (resetPartial_completes (halfOperand .reinitPartialEepromData vs) hu).imp fun _ h => h.1
    exact ⟨t, ht, nofun⟩
  | reqPartialEepromData =>
    obtain ⟨t, ht, hno⟩ := reqPartialEepromData_completes h (halfOperand .reqPartialEepromData vs)
    exact ⟨t, ht, fun _ => hno⟩
  | reqCardRecordingState =>
    exact ⟨_, opReqCardRecordingState_eq h.params hw, fun _ =>
      ((NoOverflow.record (s := s) (e := .logIsOpen s.env.logOpen) rfl).trans
        (.record (e := .logIsLocked s.env.logLocked) rfl)).reply _ _ _⟩
  | reqResponse => exact ⟨_, opReqResponse_eq h.params hw, fun _ => .sentFrame _ _ _⟩
  | _ => exact ⟨_, rfl, nofun⟩

/-- What a host step keeps: the invariant, that only valid records are committed (R180), and that no frame
overflows (R149). -/
def Kept (s t : State) : Prop := t.Inv ∧ CommitsValid s t ∧ NoOverflow s t

theorem Kept.trans {s t u : State} (h : Kept s t) (h' : Kept t u) : Kept s u :=
  ⟨h'.1, h.2.1.trans h'.2.1, h.2.2.trans h'.2.2⟩

theorem Runs.kept {may : Set Part} {s t : State} (hmay : .unvalidated ∉ may) (hr : Runs may s t)
    (h : s.Inv) (hno : NoOverflow s t) : Kept s t := ⟨hr.inv h, hr.commitsValid hmay h, hno⟩

theorem unvalidated_notMem_opParts (op : CmdOp) : .unvalidated ∉ opParts op := fun h => by
  rcases opParts_subset op h with h | h <;> cases h

/-- Every operation's row completes. -/
theorem slotOf_kept {s : State} (h : s.Inv) (op : CmdOp) : ∃ t, slotOf op s = .ok t ∧ Kept s t := by
  suffices hc : ∃ t, slotOf op s = .ok t ∧ (.frame ∈ opParts op → NoOverflow s t) by
    obtain ⟨t, ht, hno⟩ := hc
    have hrun := slotOf_reaches op s t ht
    refine ⟨t, ht, hrun.kept (unvalidated_notMem_opParts op) h ?_⟩
    by_cases hf : .frame ∈ opParts op
    · exact hno hf
    · exact hrun.noOverflow hf
  cases hsel : s.selected op with
  | false => exact ⟨_, slotOf_clear hsel, fun _ => .of_silent rfl id⟩
  | true =>
    rcases short_or_canParse h.reader (s.tupleBytes op) with hs | hc
    · exact ⟨_, slotOf_short hsel hs, fun _ => (NoOverflow.of_silent rfl id).trans (.record rfl)⟩
    · have htook : (s.took op).Inv := { h with reader := hc }
      obtain ⟨t, ht, hno⟩ := act_completes htook op (s.operands op)
      exact ⟨t, (slotOf_act hsel (.inr hc)).trans ht,
        fun hf => (NoOverflow.of_silent rfl id).trans (hno hf)⟩

/-- The 24 slots complete. -/
theorem slots_kept {s : State} (h : s.Inv) :
    ∃ t, runAll (CmdOp.all.map slotOf) s = .ok t ∧ Kept s t := by
  refine runAll_completes (Kept s) _ (fun f hf u hu => ?_) s ⟨h, .refl s, .refl s⟩
  obtain ⟨op, -, rfl⟩ := List.mem_map.mp hf
  obtain ⟨t, ht, hkept⟩ := slotOf_kept hu.1 op
  exact ⟨t, ht, hu.trans hkept⟩

/-- The dispatch of a Command frame completes, whatever `ack` was. -/
theorem acceptCommand_kept {s : State} (h : s.cleared.Inv) :
    ∃ t, runAll (CmdOp.all.map slotOf) s.cleared = .ok t ∧ acceptCommand s = .ok (t.setSeq 24) ∧
      Kept s (t.setSeq 24) := by
  obtain ⟨t, ht, hinv, hcommits, hno⟩ := slots_kept h
  refine ⟨t, ht, by rw [acceptCommand_eq_map, ht, map_ok], (setSeq_runs (may := ∅) t 24).inv hinv, ?_, ?_⟩
  · exact CommitsValid.trans (.of_silent rfl rfl rfl rfl) (hcommits.trans (.of_silent rfl rfl rfl rfl))
  · exact NoOverflow.trans (.of_silent rfl id) (hno.trans (.of_silent rfl id))

/-- The rows of operations, executed one after the other, are their slots one after the other. -/
theorem execAll_map_instr (ops : List CmdOp) (s : State) :
    execAll (ops.map CmdOp.instr) s = outcome (runAll (ops.map slotOf) s) := by
  induction ops generalizing s with
  | nil => rfl
  | cons op ops ih =>
    rw [List.map_cons, execAll, exec_cmd, List.map_cons, runAll_cons]
    cases h : slotOf op s with
    | ok t => exact ih t
    | error e => rfl

theorem State.Inv.cleared {s : State} (h : s.Inv) : s.cleared.Inv :=
  { h with ack := fun _ => BitVec.zero_and }

/-- Settles O40: the row `TYPE_COMMAND` runs the same slots as the 24 rows, and each of them completes. -/
theorem commandFrameRunsSlotsInOrder : Obligations.CommandFrameRunsSlotsInOrder := by
  intro s h htype
  obtain ⟨t, ht, haccept, -⟩ := acceptCommand_kept h.cleared
  refine ⟨t, (execAll_map_instr _ _).trans (congrArg outcome ht), ?_⟩
  rw [exec_typeCommand, whenType_of_eq htype, haccept, outcome_ok]

end Sys2Proof.Machine
end

section
/-! The host steps (R9, R10): each completes from every state of the invariant and keeps it, commits valid
records only (R180), and overflows no frame (R149). -/

namespace Sys2Proof.Machine

/-! ### `PROCESS` (R200, R201) -/

/-- The state in which a payload stands in RBUF with the cursor before it (R41, R140). -/
def State.loaded (s : State) (x : List Byte) (q : List (List Byte)) : State :=
  { s with rx := { s.rx with queue := q }, rd := ⟨s.rd.buf.writeBytes 0 x, x.length, 0⟩ }

theorem loadFrame_eq {s : State} {x : List Byte} (h : x.length ≤ s.params.capRx) (q : List (List Byte)) :
    loadFrame x { s with rx := { s.rx with queue := q } } = .ok (s.loaded x q) := by
  rw [loadFrame, memWrite_eq (by simpa [State.spaceSize] using h)]
  rfl

theorem nextBytes_loaded {s : State} {x : List Byte} (hwf : s.rd.buf.wf = true) {n : Nat}
    (hn : n ≤ x.length) (q : List (List Byte)) : (s.loaded x q).nextBytes n = x.take n := by
  have hread := Memory.readBytes_writeBytes s.rd.buf hwf 0 x
  have htake := readBytes_take (s.rd.buf.writeBytes 0 x) 0 hn
  rw [hread] at htake
  exact htake.symm

/-- The type and the mask of a header (R71). -/
theorem decodeTuple_header (x : List Byte) :
    decodeTuple [.u32, .u32] (x.take 8) = [.u32 (word (x.take 4)), .u32 (word ((x.drop 4).take 4))] := by
  simp [decodeTuple, decodeField, fieldSize, List.take_take, List.drop_take]

theorem processFrame_of_short {s : State} {x : List Byte} (hlen : x.length ≤ s.params.capRx)
    (hshort : x.length < 8) (q : List (List Byte)) :
    processFrame x { s with rx := { s.rx with queue := q } } =
      .ok (((s.loaded x q).raise .parse .header).setSeq 24) := by
  have hs : (s.loaded x q).short (tupleSize [.u32, .u32]) := hshort
  rw [processFrame, loadFrame_eq hlen, bind_ok, parseInto_short hs]
  rfl

/-- A payload with a whole header is dispatched by its type (R200 step 1). -/
theorem processFrame_of_header {s : State} {x : List Byte} (hlen : x.length ≤ s.params.capRx)
    (hwf : s.rd.buf.wf = true) (hheader : 8 ≤ x.length) (q : List (List Byte)) :
    processFrame x { s with rx := { s.rx with queue := q } } = dispatchType (s.headerParsed x q) := by
  have hc : (s.loaded x q).canParse (tupleSize [.u32, .u32]) :=
    ⟨(Nat.zero_add _).trans_le hheader, hlen⟩
  have hvals : decodeTuple [.u32, .u32] ((s.loaded x q).nextBytes (tupleSize [.u32, .u32])) =
      [.u32 (word (x.take 4)), .u32 (word ((x.drop 4).take 4))] :=
    (congrArg _ (nextBytes_loaded hwf hheader q)).trans (decodeTuple_header x)
  rw [processFrame, loadFrame_eq hlen, bind_ok, parseInto_eq hc, hvals]
  rfl

theorem processHead_of_cons {s : State} {x : List Byte} {q : List (List Byte)} (h : s.rx.queue = x :: q) :
    processHead s = processFrame x { s with rx := { s.rx with queue := q } } := by
  simp only [processHead, h]

theorem dispatchType_of_command {s : State} (h : s.disp.type = s.params.typeCommand) :
    dispatchType s = acceptCommand s := if_pos h

theorem dispatchType_of_other {s : State} (h : s.disp.type ≠ s.params.typeCommand) :
    dispatchType s = .ok (s.setSeq 24) := if_neg h

/-- The oldest payload taken from the queue leaves the others, which all fit. -/
theorem State.Inv.queueBounded_tail {s : State} {x : List Byte} {q : List (List Byte)} (h : s.Inv)
    (hq : s.rx.queue = x :: q) : x.length ≤ s.params.capRx ∧ ∀ y ∈ q, y.length ≤ s.params.capRx :=
  ⟨h.queue x (hq ▸ List.mem_cons_self), fun y hy => h.queue y (hq ▸ List.mem_cons_of_mem _ hy)⟩

theorem State.Inv.loaded {s : State} {x : List Byte} {q : List (List Byte)} (h : s.Inv)
    (hq : s.rx.queue = x :: q) : (s.loaded x q).Inv := by
  obtain ⟨hrbuf, hwbuf, hwcfg⟩ := h.memory
  obtain ⟨hlen, hrest⟩ := h.queueBounded_tail hq
  exact { h with
    memory := ⟨Memory.wf_writeBytes _ _ _ hrbuf, hwbuf, hwcfg⟩, reader := ⟨Nat.zero_le _, hlen⟩,
    queue := hrest }

/-- After the header is parsed, only the ack law may fail, for the mask is new. -/
theorem State.Inv.headerParsed_cleared {s : State} {x : List Byte} {q : List (List Byte)} (h : s.Inv)
    (hq : s.rx.queue = x :: q) (hheader : 8 ≤ x.length) : (s.headerParsed x q).cleared.Inv := by
  obtain ⟨hlen, -⟩ := h.queueBounded_tail hq
  exact { h.loaded hq with reader := ⟨hheader, hlen⟩, ack := fun _ => BitVec.zero_and }

/-- Settles O42: the payload's length decides whether its header parses, and its type what is done. -/
theorem processOldestPayload : Obligations.ProcessOldestPayload := by
  intro s x q h hq
  obtain ⟨hlen, -⟩ := h.queueBounded_tail hq
  obtain ⟨hrbuf, -, -⟩ := h.memory
  rw [exec_process, processHead_of_cons hq]
  refine ⟨fun hshort => ?short, fun hheader htype => ?ignored, fun hheader htype => ?command⟩
  case short => rw [processFrame_of_short hlen hshort, outcome_ok]; rfl
  case ignored =>
    rw [processFrame_of_header hlen hrbuf hheader, dispatchType_of_other htype, outcome_ok]
  case command =>
    obtain ⟨t, -, haccept, -⟩ := acceptCommand_kept (h.headerParsed_cleared hq hheader)
    refine ⟨t.setSeq 24, ?_, ?_⟩
    · rw [exec_typeCommand, whenType_of_eq htype, haccept, outcome_ok]
    · rw [processFrame_of_header hlen hrbuf hheader, dispatchType_of_command htype, haccept, outcome_ok]

/-- What happens before that changes neither the trace nor the collaborators nor `wovf` may break the
invariant for a while. -/
theorem Kept.after_silent {s u t : State} (h : Kept u t) (hparams : u.params = s.params)
    (htrace : u.out.trace = s.out.trace) (henv : u.env = s.env) (hovf : u.wr.ovf = s.wr.ovf) :
    Kept s t := by
  obtain ⟨hinv, hcommits, hno⟩ := h
  refine ⟨hinv, CommitsValid.trans (.of_silent hparams htrace ?_ ?_) hcommits,
    NoOverflow.trans (.of_silent htrace fun h => hovf.trans h) hno⟩
  · rw [henv]
  · rw [henv]

theorem Kept.refl {s : State} (h : s.Inv) : Kept s s := ⟨h, .refl s, .refl s⟩

/-- Actions that are open to every row. -/
theorem Runs.kept_of_empty {s t : State} (hr : Runs ∅ s t) (h : s.Inv) : Kept s t :=
  hr.kept (Set.notMem_empty _) h (hr.noOverflow (Set.notMem_empty _))

/-- The dispatch of a parsed header completes, whatever `ack` was (R79, R200). -/
theorem dispatchType_kept {s : State} (h : s.cleared.Inv) : ∃ t, dispatchType s = .ok t ∧ Kept s t := by
  by_cases htype : s.disp.type = s.params.typeCommand
  · obtain ⟨t, -, haccept, hkept⟩ := acceptCommand_kept h
    exact ⟨_, (dispatchType_of_command htype).trans haccept, hkept⟩
  · have hinv : (s.setSeq 24).Inv := { h with ack := fun hc => absurd hc htype }
    exact ⟨_, dispatchType_of_other htype, (Kept.refl hinv).after_silent rfl rfl rfl rfl⟩

theorem process_kept {s : State} (h : s.Inv) : ∃ t, exec .process s = .next t ∧ Kept s t := by
  suffices hc : ∃ t, processHead s = .ok t ∧ Kept s t by
    obtain ⟨t, ht, hkept⟩ := hc
    exact ⟨t, congrArg outcome ht, hkept⟩
  obtain ⟨hrbuf, -, -⟩ := h.memory
  cases hq : s.rx.queue with
  | nil => exact ⟨s, processHead_of_nil hq, .refl h⟩
  | cons x q =>
    obtain ⟨hlen, -⟩ := h.queueBounded_tail hq
    rw [processHead_of_cons hq]
    rcases Nat.lt_or_ge x.length 8 with hshort | hheader
    · have hrun : Runs ∅ (s.loaded x q) (((s.loaded x q).raise .parse .header).setSeq 24) :=
        (raise_runs _ (by decide) _).trans (setSeq_runs _ 24)
      exact ⟨_, processFrame_of_short hlen hshort q,
        (hrun.kept_of_empty (h.loaded hq)).after_silent rfl rfl rfl rfl⟩
    · obtain ⟨t, ht, hkept⟩ := dispatchType_kept (h.headerParsed_cleared hq hheader)
      exact ⟨t, (processFrame_of_header hlen hrbuf hheader q).trans ht, hkept.after_silent rfl rfl rfl rfl⟩

/-! ### `RX_BYTE` (R117) -/

/-- The invariant does not speak of the streaming registers. -/
theorem State.Inv.framer {s : State} (h : s.Inv) {f : Framer} (hacc : 0#8 ∉ f.acc)
    (hqueue : ∀ x ∈ f.queue, x.length ≤ s.params.capRx) : State.Inv { s with rx := f } :=
  { h with acc := hacc, queue := hqueue }

theorem rxByte_kept {s : State} (h : s.Inv) (b : Byte) : Kept s (rxByte b s) := by
  have hqueue (c : Byte) : ∀ x ∈ (s.rx.follow s.params c).queue, x.length ≤ s.params.capRx := by
    rw [Framer.follow_queue]
    exact h.queue
  by_cases hb : b = 0#8
  · subst hb
    cases hd : decodeFrame s.params s.rx.acc s.params.capRx with
    | none =>
      rw [rxByte_zero_of_none hd]
      have hclosed : State.Inv { s with rx := { s.rx.follow s.params 0#8 with acc := [] } } :=
        h.framer List.not_mem_nil (hqueue 0#8)
      exact ((raise_runs _ (by decide) _).kept_of_empty hclosed).after_silent rfl rfl rfl rfl
    | some r =>
      rw [rxByte_zero_of_some hd]
      refine (Kept.refl (h.framer List.not_mem_nil fun x hx => ?_)).after_silent rfl rfl rfl rfl
      rcases List.mem_append.mp hx with hx | hx
      · exact h.queue x hx
      · exact List.mem_singleton.mp hx ▸ decodeFrame_length_le hd
  · rw [rxByte_of_ne_zero hb]
    have hacc : 0#8 ∉ s.rx.acc ++ [b] := by simpa using ⟨h.acc, fun hz => hb hz.symm⟩
    have hinv : State.Inv { s with rx := { s.rx.follow s.params b with acc := s.rx.acc ++ [b] } } :=
      h.framer hacc (hqueue b)
    exact (Kept.refl hinv).after_silent rfl rfl rfl rfl

/-! ### `RESET` and `EMIT` (R261, R350) -/

theorem reset_kept {s : State} (h : s.Inv) : Kept s (resetBlock s) := by
  have hinv : (resetBlock s).Inv :=
    { h with acc := List.not_mem_nil, queue := fun _ hx => absurd hx List.not_mem_nil }
  exact (Kept.refl hinv).after_silent rfl rfl rfl rfl

theorem NoOverflow.asked (s : State) (toLog : Bool) : NoOverflow s (s.asked toLog) := by
  cases toLog with
  | true => exact .record rfl
  | false => exact .refl s

theorem NoOverflow.deliver (d : Dest) (bs : List Byte) (s : State) : NoOverflow s (deliver d bs s) := by
  cases d with
  | wire => exact .of_plain (evs := [.writeBytes bs]) rfl (by simp [Event.plain]) id
  | log => exact .of_plain (evs := [.logWrite bs]) rfl (by simp [Event.plain]) id

theorem NoOverflow.emitted (s : State) (ts eff : Word) (toLog : Bool) :
    NoOverflow s (s.emitted ts eff toLog) := by
  refine NoOverflow.trans ?_ (NoOverflow.deliver _ _ _)
  exact .of_plain (evs := [.snapshotTelemetry]) rfl (by simp [Event.plain]) fun _ => rfl

/-- WF7 leaves room for every State frame, so `EMIT` completes and no frame overflows. -/
theorem emit_completes {s : State} (h : s.Inv) (ts mask : Word) (toLog : Bool) :
    ∃ t, exec (.emit ts mask toLog) s = .next t ∧ NoOverflow s t := by
  obtain ⟨-, hw, -⟩ := h.memory
  by_cases hopen : toLog = false ∨ s.env.logOpen = true
  · rw [exec_emit_of_open hopen]
    by_cases hzero : s.effectiveMask mask = 0#32
    · exact ⟨_, congrArg outcome (emitMask_of_zero (by rwa [State.asked_effectiveMask]) ts toLog),
        (NoOverflow.asked s toLog).trans (.of_silent rfl id)⟩
    · exact ⟨_, congrArg outcome (emitMask_of_ne_zero (by rw [State.asked_params]; exact h.params)
        (by rwa [State.asked_wr]) (by rwa [State.asked_effectiveMask]) ts toLog),
        (NoOverflow.asked s toLog).trans (.emitted _ _ _ _)⟩
  · obtain ⟨hlog, hclosed⟩ := not_or.mp hopen
    obtain rfl : toLog = true := by simpa using hlog
    exact ⟨_, exec_emit_of_closed (by simpa using hclosed), .asked s true⟩

theorem emit_kept {s : State} (h : s.Inv) (ts mask : Word) (toLog : Bool) :
    ∃ t, exec (.emit ts mask toLog) s = .next t ∧ Kept s t := by
  obtain ⟨t, ht, hno⟩ := emit_completes h ts mask toLog
  have hrun : Runs {.frame, .telemetry} s t := 
    exec_runs (i := .emit ts mask toLog) nofun nofun nofun ht
  exact ⟨t, ht, hrun.kept (by rintro (hc | hc) <;> cases hc) h hno⟩

/-! ### Every host step (R9, R180, R149) -/

theorem hostStep_kept {i : Instr} {s : State} (h : s.Inv) (hi : i.isHostStep = true) :
    ∃ t, exec i s = .next t ∧ Kept s t := by
  cases i with
  | rxByte b => exact ⟨_, exec_rxByte b s, rxByte_kept h b⟩
  | process => exact process_kept h
  | emit ts mask toLog => exact emit_kept h ts mask toLog
  | reset => exact ⟨_, exec_reset s, reset_kept h⟩
  | _ => cases hi

/-- What a host step answers is what it is known to keep. -/
theorem kept_of_hostStep {i : Instr} {s t : State} (h : s.Inv) (hi : i.isHostStep = true)
    (ht : exec i s = .next t) : Kept s t := by
  obtain ⟨u, hu, hkept⟩ := hostStep_kept h hi
  rw [ht] at hu
  cases hu
  exact hkept

/-- Settles O60: the operations that could fault are given their room by WF4 to WF8 and the bounds of the
invariant. -/
theorem hostStepsComplete : Obligations.HostStepsComplete := fun _ _ h hi =>
  (hostStep_kept h hi).imp fun _ ⟨ht, hkept⟩ => ⟨ht, hkept.1⟩

/-- Settles O44: the only commits are those of the three rows that validate the working copy first, and of
the defaults, which WF8 has valid. -/
theorem onlyValidRecordsAreCommitted : Obligations.OnlyValidRecordsAreCommitted :=
  fun _ _ _ h hi ht => (kept_of_hostStep h hi ht).2.1.2

/-- Settles O45: only four operations and `EMIT` build a frame, and WF5 to WF7 leave room for what each
appends. -/
theorem noFrameOverflows : Obligations.NoFrameOverflows := by
  intro i s t h hovf hi ht
  obtain ⟨-, -, hclear, hevents⟩ := kept_of_hostStep h hi ht
  exact ⟨hclear hovf, hevents⟩

/-- Every instruction that answers a next state keeps the invariant. -/
theorem exec_inv {i : Instr} {s t : State} (h : s.Inv) (ht : exec i s = .next t) : t.Inv := by
  cases hi : i.isHostStep with
  | true => exact (kept_of_hostStep h hi ht).1
  | false =>
    refine (exec_runs (fun b hb => ?_) (fun hp => ?_) (fun hr => ?_) ht).inv h
    · rw [hb] at hi; cases hi
    · rw [hp] at hi; cases hi
    · rw [hr] at hi; cases hi

/-! ### The machine's step (R10, R56) -/

theorem State.Inv.advance {s : State} (h : s.Inv) (rest : List Stimulus) : (s.advance rest).Inv :=
  { h with }

theorem fetchInstr_inv {f : Format} {bs : List Byte} {rest : List Stimulus} {s : State} {r : Instr × State}
    (h : fetchInstr f bs rest s = .ok r) : ∃ rest', r.2 = s.advance rest' := by
  unfold fetchInstr at h
  split at h
  · cases h
  · cases h
  · cases h
    exact ⟨_, rfl⟩

/-- A step on offered bytes executes an instruction on the state advanced. -/
theorem exec_of_step_instr {s t : State} {f : Format} {bs : List Byte} {rest : List Stimulus}
    (hst : s.stimuli = .instr f bs :: rest) (h : step s = .next t) :
    ∃ i rest', exec i (s.advance rest') = .next t := by
  simp only [step, hst] at h
  split at h
  · cases hf : fetchInstr f bs rest s with
    | ok r =>
      obtain ⟨rest', hadvance⟩ := fetchInstr_inv hf
      rw [hf] at h
      exact ⟨r.1, rest', hadvance ▸ h⟩
    | error e =>
      rw [hf] at h
      cases h
  · cases h

/-- Settles O59: a step is an instruction on the state advanced, or a change of the collaborators within
their contracts. -/
theorem stepKeepsInvariant : Obligations.StepKeepsInvariant := by
  intro s t h ht
  cases hst : s.stimuli with
  | nil =>
    simp only [step, hst] at ht
    cases ht
    exact h
  | cons st rest =>
    cases st with
    | instr f bs =>
      obtain ⟨i, rest', hexec⟩ := exec_of_step_instr hst ht
      exact exec_inv (h.advance rest') hexec
    | collaborators e =>
      obtain ⟨hmay, rfl⟩ := step_collaborators hst ht
      have henv : e.wf s.params = true := (Bool.and_eq_true_iff.mp hmay).1
      exact { h.advance rest with env := henv }

end Sys2Proof.Machine
end
